-- ==== Sys2Proof/Word.lean ====
section
/-! DEFINITION. The machine's words: the widths the spec gives its registers, data types and
encoding fields (R8, R10). -/

namespace Sys2Proof

/-- A register, an address, an ARM instruction: 32 bits (R8). -/
abbrev Word := BitVec 32

/-- A Thumb instruction or a halfword of data: 16 bits (R8). -/
abbrev Half := BitVec 16

/-- A byte of data (R8). -/
abbrev Byte := BitVec 8

/-- The number of a general register, r0 to r15 (R13). -/
abbrev Reg := BitVec 4

/-- The number of a low register, r0 to r7 (R13). -/
abbrev LowReg := BitVec 3

/-- A low register as one of the sixteen (R25: Thumb r0–r7 are the ARM r0–r7). -/
abbrev LowReg.reg (r : LowReg) : Reg := r.zeroExtend 4

end Sys2Proof
end

