-- ==== Sys2Proof/Config.lean ====
section
/-! DEFINITION. What an implementation fixes, and the free values: the constants without a body,
about which nothing can be proved. Every use of a free value names the rule of spec/ that leaves the
value open. The platform's parameters (R9) are not here: they are fields of State. -/

namespace Sys2Proof

namespace Config

/-- The CP15 ID register without its last nibble, the core revision (R3, R42). -/
def idUpper : BitVec 28 := 0x4180720

/-- The core revision this specification describes (R42), the default of the parameter (U36). -/
def defaultRevision : BitVec 4 := 4

/-- The default JTAG device identification code (R3, R554). -/
def defaultJtagId : Word := 0x7f1f0f0f

/-- The core's free values: reserved PSR and CP15 bits as they are read (R36, R43, R45, R47, R51),
the flags a multiply leaves without meaning (R276), loaded and stored values the spec calls unknown
(R97, R318, R337), r14_svc and SPSR_svc after a warm reset (R570). Applied to the counter
`State.draws`, one fresh value a draw. -/
opaque freeWord : Nat → Word

/-- The memory system's free values: the bits of FSR the spec leaves open (R131, R132, R136), data of
a line fill whose ERROR was ignored, whether a buffered write that drew ERROR was performed (R157).
Applied to the counter `MemSys.draws`. -/
opaque busWord : Nat → Word

/-- What a slave other than memory drives on HRDATA once the script of answers has run out (R9, R104):
applied to the number of transfers so far. -/
opaque slaveWord : Nat → Word

/-- The random generator that picks the line a cache fill replaces (R144), applied to
`MemSys.draws`. -/
opaque cacheVictim : Nat → BitVec 6

/-- The RANGE and CHAIN inputs of watchpoint unit 1, which the spec does not describe (R548, U46):
applied to `State.draws`; the first is RANGE, the second CHAIN. -/
opaque unit1Inputs : Nat → Bool × Bool

/-! The data formats of the cache and MMU test operations are in lost figures (N30, N31 of
91_not_in_source.md): the operations are modelled (R55 to R58) and each lost format is one of the
constants below. -/

/-- The victim index (0 to 63) in the Rd of a c9 write (Figures 11-10, 11-11 lost), where it is not the
index 0 of Example 11-1 (R55). -/
opaque c9Index : Word → BitVec 6

/-- The tag in the Rd of a cache CAM write. -/
opaque camTag : Word → BitVec 25

/-- The tag in the Rd of a cache CAM match. -/
opaque camMatchTag : Word → BitVec 25

/-- The word field in the Rd of a cache CAM match. -/
opaque camMatchWord : Word → BitVec 3

/-- The valid bit in the Rd of a cache CAM write. -/
opaque camValid : Word → Bool

/-- What a cache CAM read puts in C15.C for a line (its tag, its valid bit) and the segment's
victim pointer, outside bits 5 and 6 (R57). -/
opaque camData : BitVec 25 → Bool → BitVec 6 → Word

/-- The segment field in the Rd of a cache RAM operation. -/
opaque ramSegment : Word → BitVec 2

/-- The word field in the Rd of a cache RAM operation. -/
opaque ramWord : Word → BitVec 3

/-- The victim pointer in a c10 value other than 0 (R56). -/
opaque c10Victim : Word → BitVec 6

/-- The lockdown base in a c10 value. -/
opaque c10Base : Word → BitVec 6

/-- The preserve bit in a c10 value. -/
opaque c10Preserve : Word → Bool

/-- What c10 reads as: victim, base, preserve bit. -/
opaque c10Data : BitVec 6 → BitVec 6 → Bool → Word

/-- The MVA tag in the Rd of an MMU CAM write, as an address. -/
opaque tlbCamTag : Word → Word

/-- SIZE_C in an MMU CAM value (its codes are Table 11-7's, R58). -/
opaque tlbCamSize : Word → BitVec 4

/-- The V bit in an MMU CAM value. -/
opaque tlbCamValid : Word → Bool

/-- The P bit in an MMU CAM value. -/
opaque tlbCamPreserve : Word → Bool

/-- What an MMU CAM read puts in C15.M: tag, SIZE_C, V, P. -/
opaque tlbCamData : Word → BitVec 4 → Bool → Bool → Word

/-- The one-hot AP field of an MMU RAM1 value (its codes are Table 11-8's, R58). -/
opaque tlbRam1Ap : Word → BitVec 4

/-- The domain field of an MMU RAM1 value. -/
opaque tlbRam1Domain : Word → BitVec 4

/-- The C attribute of an MMU RAM1 value. -/
opaque tlbRam1Cachable : Word → Bool

/-- The B attribute of an MMU RAM1 value. -/
opaque tlbRam1Bufferable : Word → Bool

/-- What an MMU RAM1 read puts in C15.M outside bits [24:22]: one-hot AP, domain, C, B. -/
opaque tlbRam1Data : BitVec 4 → BitVec 4 → Bool → Bool → Word

/-- The physical tag of an MMU RAM2 value, as an address. -/
opaque tlbRam2Tag : Word → Word

/-- SIZE_R2 in an MMU RAM2 value (its codes are Table 11-10's, R58). -/
opaque tlbRam2Size : Word → BitVec 4

/-- What an MMU RAM2 read puts in C15.M: physical tag, SIZE_R2. -/
opaque tlbRam2Data : Word → BitVec 4 → Word

end Config

end Sys2Proof
end

