-- ==== Sys2Proof/Syntax.lean ====
section
/-! DEFINITION. The instruction set as syntax: one constructor per row of spec/opcode_table.json, in
the table's order. The fields are the encoding's fields; what an operand means is
Machine/Operands.lean's, what an instruction does is its meaning's. -/

namespace Sys2Proof

/-- The condition field, bits [31:28] (R182). The sixteenth code has no name here: a word that carries
it is refused by the decoder (R198). -/
inductive Cond where
  | eq | ne | cs | cc | mi | pl | vs | vc | hi | ls | ge | lt | gt | le | al
  deriving DecidableEq, Repr

/-- The shift types (R186). With an immediate amount of 0, `lsr` and `asr` mean 32 and `ror` means RRX
(R187). -/
inductive ShiftType where
  | lsl | lsr | asr | ror
  deriving DecidableEq, Repr

/-- Operand 2 of a data-processing instruction (R185, R187, R188). -/
inductive Operand2 where
  | imm (rotate : BitVec 4) (imm8 : BitVec 8)
  | shiftImm (sh : ShiftType) (amount : BitVec 5) (rm : Reg)
  | shiftReg (sh : ShiftType) (rs : Reg) (rm : Reg)
  deriving DecidableEq, Repr

/-- How the address and the write-back are formed (R189, R190): P = 1 W = 0, P = 1 W = 1, P = 0 W = 0.
The fourth combination is the T variant in addressing mode 2 and UNPREDICTABLE in mode 3. -/
inductive Index where
  | offset | pre | post
  deriving DecidableEq, Repr

/-- The offset of addressing mode 2 (R189). -/
inductive Offset2 where
  | imm (imm12 : BitVec 12)
  | reg (sh : ShiftType) (amount : BitVec 5) (rm : Reg)
  deriving DecidableEq, Repr

/-- The offset of addressing mode 3 (R190). -/
inductive Offset3 where
  | imm (imm8 : BitVec 8)
  | reg (rm : Reg)
  deriving DecidableEq, Repr

/-- The instructions: the 58 ARM rows (`arm…`) and the 64 Thumb rows (`thumb…`) of
spec/opcode_table.json. -/
inductive Instr where
  -- ARM data processing (R244 to R259)
  | armAnd (c : Cond) (sf : Bool) (rn rd : Reg) (op2 : Operand2)
  | armEor (c : Cond) (sf : Bool) (rn rd : Reg) (op2 : Operand2)
  | armSub (c : Cond) (sf : Bool) (rn rd : Reg) (op2 : Operand2)
  | armRsb (c : Cond) (sf : Bool) (rn rd : Reg) (op2 : Operand2)
  | armAdd (c : Cond) (sf : Bool) (rn rd : Reg) (op2 : Operand2)
  | armAdc (c : Cond) (sf : Bool) (rn rd : Reg) (op2 : Operand2)
  | armSbc (c : Cond) (sf : Bool) (rn rd : Reg) (op2 : Operand2)
  | armRsc (c : Cond) (sf : Bool) (rn rd : Reg) (op2 : Operand2)
  | armTst (c : Cond) (rn : Reg) (op2 : Operand2)
  | armTeq (c : Cond) (rn : Reg) (op2 : Operand2)
  | armCmp (c : Cond) (rn : Reg) (op2 : Operand2)
  | armCmn (c : Cond) (rn : Reg) (op2 : Operand2)
  | armOrr (c : Cond) (sf : Bool) (rn rd : Reg) (op2 : Operand2)
  | armMov (c : Cond) (sf : Bool) (rd : Reg) (op2 : Operand2)
  | armBic (c : Cond) (sf : Bool) (rn rd : Reg) (op2 : Operand2)
  | armMvn (c : Cond) (sf : Bool) (rd : Reg) (op2 : Operand2)
  -- ARM multiply (R270 to R275)
  | armMul (c : Cond) (sf : Bool) (rd rs rm : Reg)
  | armMla (c : Cond) (sf : Bool) (rd rn rs rm : Reg)
  | armUmull (c : Cond) (sf : Bool) (rdHi rdLo rs rm : Reg)
  | armUmlal (c : Cond) (sf : Bool) (rdHi rdLo rs rm : Reg)
  | armSmull (c : Cond) (sf : Bool) (rdHi rdLo rs rm : Reg)
  | armSmlal (c : Cond) (sf : Bool) (rdHi rdLo rs rm : Reg)
  -- ARM swap (R350, R351)
  | armSwp (c : Cond) (rn rd rm : Reg)
  | armSwpb (c : Cond) (rn rd rm : Reg)
  -- ARM status register access (R280 to R282) and branches (R290 to R292)
  | armMrs (c : Cond) (spsr : Bool) (rd : Reg)
  | armMsrReg (c : Cond) (spsr : Bool) (mask : BitVec 4) (rm : Reg)
  | armMsrImm (c : Cond) (spsr : Bool) (mask : BitVec 4) (rotate : BitVec 4) (imm8 : BitVec 8)
  | armBx (c : Cond) (rm : Reg)
  | armB (c : Cond) (offset : BitVec 24)
  | armBl (c : Cond) (offset : BitVec 24)
  -- ARM single data transfer (R301 to R308, R312 to R315)
  | armLdr (c : Cond) (index : Index) (up : Bool) (rn rd : Reg) (off : Offset2)
  | armStr (c : Cond) (index : Index) (up : Bool) (rn rd : Reg) (off : Offset2)
  | armLdrb (c : Cond) (index : Index) (up : Bool) (rn rd : Reg) (off : Offset2)
  | armStrb (c : Cond) (index : Index) (up : Bool) (rn rd : Reg) (off : Offset2)
  | armLdrt (c : Cond) (up : Bool) (rn rd : Reg) (off : Offset2)
  | armStrt (c : Cond) (up : Bool) (rn rd : Reg) (off : Offset2)
  | armLdrbt (c : Cond) (up : Bool) (rn rd : Reg) (off : Offset2)
  | armStrbt (c : Cond) (up : Bool) (rn rd : Reg) (off : Offset2)
  | armStrh (c : Cond) (index : Index) (up : Bool) (rn rd : Reg) (off : Offset3)
  | armLdrh (c : Cond) (index : Index) (up : Bool) (rn rd : Reg) (off : Offset3)
  | armLdrsb (c : Cond) (index : Index) (up : Bool) (rn rd : Reg) (off : Offset3)
  | armLdrsh (c : Cond) (index : Index) (up : Bool) (rn rd : Reg) (off : Offset3)
  -- ARM block data transfer (R341 to R348)
  | armLdmia (c : Cond) (sf wb : Bool) (rn : Reg) (list : BitVec 16)
  | armLdmib (c : Cond) (sf wb : Bool) (rn : Reg) (list : BitVec 16)
  | armLdmda (c : Cond) (sf wb : Bool) (rn : Reg) (list : BitVec 16)
  | armLdmdb (c : Cond) (sf wb : Bool) (rn : Reg) (list : BitVec 16)
  | armStmia (c : Cond) (sf wb : Bool) (rn : Reg) (list : BitVec 16)
  | armStmib (c : Cond) (sf wb : Bool) (rn : Reg) (list : BitVec 16)
  | armStmda (c : Cond) (sf wb : Bool) (rn : Reg) (list : BitVec 16)
  | armStmdb (c : Cond) (sf wb : Bool) (rn : Reg) (list : BitVec 16)
  -- ARM software interrupt and coprocessor instructions (R352, R359 to R363)
  | armSwi (c : Cond) (imm : BitVec 24)
  | armCdp (c : Cond) (op1 crn crd cp : BitVec 4) (op2 : BitVec 3) (crm : BitVec 4)
  | armLdc (c : Cond) (p up n wb : Bool) (rn : Reg) (crd cp : BitVec 4) (off : BitVec 8)
  | armStc (c : Cond) (p up n wb : Bool) (rn : Reg) (crd cp : BitVec 4) (off : BitVec 8)
  | armMcr (c : Cond) (op1 : BitVec 3) (crn : BitVec 4) (rd : Reg) (cp : BitVec 4) (op2 : BitVec 3) (crm : BitVec 4)
  | armMrc (c : Cond) (op1 : BitVec 3) (crn : BitVec 4) (rd : Reg) (cp : BitVec 4) (op2 : BitVec 3) (crm : BitVec 4)
  -- ARM undefined space (R196)
  | armUndefMedia (c : Cond) (hi : BitVec 20) (lo : BitVec 4)
  | armUndefMsr (c : Cond) (r : Bool) (lo : BitVec 20)
  -- Thumb formats 1 to 3 (R392 to R402)
  | thumbLslImm (imm5 : BitVec 5) (rs rd : LowReg)
  | thumbLsrImm (imm5 : BitVec 5) (rs rd : LowReg)
  | thumbAsrImm (imm5 : BitVec 5) (rs rd : LowReg)
  | thumbAddReg (rn rs rd : LowReg)
  | thumbSubReg (rn rs rd : LowReg)
  | thumbAddImm3 (imm3 : BitVec 3) (rs rd : LowReg)
  | thumbSubImm3 (imm3 : BitVec 3) (rs rd : LowReg)
  | thumbMovImm (rd : LowReg) (imm8 : BitVec 8)
  | thumbCmpImm (rd : LowReg) (imm8 : BitVec 8)
  | thumbAddImm8 (rd : LowReg) (imm8 : BitVec 8)
  | thumbSubImm8 (rd : LowReg) (imm8 : BitVec 8)
  -- Thumb format 4 (R403 to R418)
  | thumbAnd (rs rd : LowReg)
  | thumbEor (rs rd : LowReg)
  | thumbLslReg (rs rd : LowReg)
  | thumbLsrReg (rs rd : LowReg)
  | thumbAsrReg (rs rd : LowReg)
  | thumbAdc (rs rd : LowReg)
  | thumbSbc (rs rd : LowReg)
  | thumbRor (rs rd : LowReg)
  | thumbTst (rs rd : LowReg)
  | thumbNeg (rs rd : LowReg)
  | thumbCmpReg (rs rd : LowReg)
  | thumbCmn (rs rd : LowReg)
  | thumbOrr (rs rd : LowReg)
  | thumbMul (rs rd : LowReg)
  | thumbBic (rs rd : LowReg)
  | thumbMvn (rs rd : LowReg)
  -- Thumb format 5 (R425 to R429)
  | thumbAddHi (rm rd : Reg)
  | thumbCmpHi (rm rd : Reg)
  | thumbMovHi (rm rd : Reg)
  | thumbBx (rm : Reg)
  -- Thumb loads and stores, formats 6 to 11 (R451 to R467)
  | thumbLdrPc (rd : LowReg) (word8 : BitVec 8)
  | thumbStrReg (ro rb rd : LowReg)
  | thumbStrbReg (ro rb rd : LowReg)
  | thumbLdrReg (ro rb rd : LowReg)
  | thumbLdrbReg (ro rb rd : LowReg)
  | thumbStrhReg (ro rb rd : LowReg)
  | thumbLdrsbReg (ro rb rd : LowReg)
  | thumbLdrhReg (ro rb rd : LowReg)
  | thumbLdrshReg (ro rb rd : LowReg)
  | thumbStrImm (imm5 : BitVec 5) (rb rd : LowReg)
  | thumbLdrImm (imm5 : BitVec 5) (rb rd : LowReg)
  | thumbStrbImm (imm5 : BitVec 5) (rb rd : LowReg)
  | thumbLdrbImm (imm5 : BitVec 5) (rb rd : LowReg)
  | thumbStrhImm (imm5 : BitVec 5) (rb rd : LowReg)
  | thumbLdrhImm (imm5 : BitVec 5) (rb rd : LowReg)
  | thumbStrSp (rd : LowReg) (word8 : BitVec 8)
  | thumbLdrSp (rd : LowReg) (word8 : BitVec 8)
  -- Thumb formats 12 and 13 (R430 to R433)
  | thumbAddPc (rd : LowReg) (word8 : BitVec 8)
  | thumbAddSp (rd : LowReg) (word8 : BitVec 8)
  | thumbIncSp (word7 : BitVec 7)
  | thumbDecSp (word7 : BitVec 7)
  -- Thumb formats 14 to 19 (R468 to R471, R475, R480 to R483)
  | thumbPush (lr : Bool) (list : BitVec 8)
  | thumbPop (pc : Bool) (list : BitVec 8)
  | thumbStmia (rb : LowReg) (list : BitVec 8)
  | thumbLdmia (rb : LowReg) (list : BitVec 8)
  | thumbBCond (c : Cond) (offset : BitVec 8)
  | thumbSwi (imm : BitVec 8)
  | thumbB (offset : BitVec 11)
  | thumbBlHigh (offset : BitVec 11)
  | thumbBlLow (offset : BitVec 11)
  -- Thumb undefined space (R206, R485)
  | thumbUndefB (lo : BitVec 12)
  | thumbUndefDe (lo : BitVec 8)
  | thumbUndefE8 (lo : BitVec 11)
  deriving DecidableEq, Repr

end Sys2Proof
end

