-- ==== Sys2Proof/Machine/Restrictions.lean ====
section
/-! DEFINITION. The register restrictions of the encodings the spec calls UNPREDICTABLE (R197, R206):
words that decode to an instruction whose registers break a restriction; the instruction refuses to run
(U15). And the registers an instruction names, for the hazard of R586. -/

namespace Sys2Proof

/-- Whether an addressing mode writes the base back (R189). -/
def Index.writesBack : Index → Bool
  | .offset => false
  | .pre => true
  | .post => true

end Sys2Proof

namespace Sys2Proof.Machine

/-- The restrictions of R197 and R206, by what breaks them. -/
inductive Restriction where
  /-- r15 as a register of a register-specified shift, a multiply, a swap, BX, or as Rm of a transfer,
  MSR, MCR or Rd of MRS (R197). -/
  | r15Operand
  /-- r15 as the data register of a byte, halfword, signed or T transfer (R318). -/
  | r15Data
  /-- r15 as a base that is written back, or as the base of a block transfer (R318, R339). -/
  | r15Base
  /-- Rd = Rm in a multiply, RdHi, RdLo, Rm not all different in a long one (R276), Rd = Rs in the Thumb
  MUL (R416), Rn = Rm or Rn = Rd in a swap (R350). -/
  | sameRegister
  /-- Rm = Rn with write-back (R318). -/
  | offsetIsBase
  /-- Rd = Rn with write-back (R318). -/
  | dataIsBase
  /-- The base in the list with write-back: of LDM and of the Thumb LDMIA; of STM and of the Thumb STMIA when
  it is not the lowest register (R337, R470, R471). -/
  | baseInList
  /-- An empty register list (R339, R468, R470). -/
  | emptyList
  /-- S = 1 with W = 1 and r15 not in the list (R333, R338). -/
  | userBankWriteBack
  /-- P = 0, W = 0, U = 0 in LDC or STC (R360). -/
  | unindexedDown
  /-- Thumb format 5 with two low registers, or its CMP with r15 first (R206, R426). -/
  | highRegister
  deriving DecidableEq, Repr

/-- The first broken restriction of a list of them with what breaks each. -/
def firstBroken : List (Bool × Restriction) → Option Restriction
  | [] => none
  | (b, r) :: rest => if b then some r else firstBroken rest

/-- Data processing: a register-specified shift names no r15 (R188, R197). -/
def op2Restriction (rn rd : Reg) : Operand2 → Option Restriction
  | .shiftReg _ rs rm => firstBroken [(rn == 15 || rd == 15 || rs == 15 || rm == 15, .r15Operand)]
  | _ => none

/-- MUL and MLA (R276). -/
def mulRestriction (rd rn rs rm : Reg) : Option Restriction :=
  firstBroken [(rd == 15 || rn == 15 || rs == 15 || rm == 15, .r15Operand), (rd == rm, .sameRegister)]

/-- The long multiplies (R276). -/
def longMulRestriction (rdHi rdLo rs rm : Reg) : Option Restriction :=
  firstBroken [(rdHi == 15 || rdLo == 15 || rs == 15 || rm == 15, .r15Operand),
    (rdHi == rdLo || rdHi == rm || rdLo == rm, .sameRegister)]

/-- SWP and SWPB (R350). -/
def swapRestriction (rn rd rm : Reg) : Option Restriction :=
  firstBroken [(rn == 15 || rd == 15 || rm == 15, .r15Operand), (rn == rm || rn == rd, .sameRegister)]

/-- One register that is not r15: MRS (R280), MSR (R281), BX (R292), MCR (R362). -/
def notPcRestriction (r : Reg) : Option Restriction := firstBroken [(r == 15, .r15Operand)]

/-- Addressing mode 2 (R189, R318). -/
def mode2Restriction (wb : Bool) (rn rd : Reg) : Offset2 → Option Restriction
  | .imm _ => firstBroken [(wb && rn == 15, .r15Base), (wb && rd == rn, .dataIsBase)]
  | .reg _ _ rm => firstBroken [(wb && rn == 15, .r15Base), (rm == 15, .r15Operand),
      (wb && rm == rn, .offsetIsBase), (wb && rd == rn, .dataIsBase)]

/-- Addressing mode 2 where the data register may not be r15: byte and T transfers (R318). -/
def mode2DataRestriction (wb : Bool) (rn rd : Reg) (off : Offset2) : Option Restriction :=
  if rd = 15 then some .r15Data else mode2Restriction wb rn rd off

/-- Addressing mode 3 (R190, R318). -/
def mode3Restriction (wb : Bool) (rn rd : Reg) : Offset3 → Option Restriction
  | .imm _ => firstBroken [(rd == 15, .r15Data), (wb && rn == 15, .r15Base), (wb && rd == rn, .dataIsBase)]
  | .reg rm => firstBroken [(rd == 15, .r15Data), (wb && rn == 15, .r15Base), (rm == 15, .r15Operand),
      (wb && rm == rn, .offsetIsBase), (wb && rd == rn, .dataIsBase)]

/-- Whether a list holds a register. -/
def holds {w : Nat} (list : BitVec w) (i : Reg) : Bool := list.getLsbD i.toNat

/-- Whether a list holds a register and a lower one (R337, R470). -/
def holdsNotLowest {w : Nat} (list : BitVec w) (i : Reg) : Bool :=
  list.getLsbD i.toNat && (List.range i.toNat).any fun j => list.getLsbD j

/-- LDM (R333, R337, R339). -/
def ldmRestriction (sf wb : Bool) (rn : Reg) (list : BitVec 16) : Option Restriction :=
  firstBroken [(list == 0, .emptyList), (rn == 15, .r15Base),
    (sf && wb && !list.getLsbD 15, .userBankWriteBack), (wb && holds list rn, .baseInList)]

/-- STM (R337 to R339). -/
def stmRestriction (sf wb : Bool) (rn : Reg) (list : BitVec 16) : Option Restriction :=
  firstBroken [(list == 0, .emptyList), (rn == 15, .r15Base), (sf && wb, .userBankWriteBack),
    (wb && holdsNotLowest list rn, .baseInList)]

/-- LDC and STC (R360). -/
def ldcRestriction (p up wb : Bool) (rn : Reg) : Option Restriction :=
  firstBroken [(wb && rn == 15, .r15Base), (!p && !wb && !up, .unindexedDown)]

/-- Thumb format 5 ADD and MOV: at least one high register (R206). -/
def highRestriction (rm rd : Reg) : Option Restriction :=
  firstBroken [(rm.ult 8 && rd.ult 8, .highRegister)]

/-- Thumb format 5 CMP: as the others, and the first operand is not r15 (R426). -/
def cmpHighRestriction (rm rd : Reg) : Option Restriction :=
  firstBroken [(rm.ult 8 && rd.ult 8, .highRegister), (rd == 15, .highRegister)]

/-- Thumb MUL (R416). -/
def thumbMulRestriction (rs rd : LowReg) : Option Restriction :=
  firstBroken [(rs == rd, .sameRegister)]

/-- Thumb PUSH and POP (R468). -/
def pushRestriction (extra : Bool) (list : BitVec 8) : Option Restriction :=
  firstBroken [(!extra && list == 0, .emptyList)]

/-- Thumb STMIA (R470). -/
def thumbStmiaRestriction (rb : LowReg) (list : BitVec 8) : Option Restriction :=
  firstBroken [(list == 0, .emptyList), (holdsNotLowest list rb.reg, .baseInList)]

/-- Thumb LDMIA (R470, R471). -/
def thumbLdmiaRestriction (rb : LowReg) (list : BitVec 8) : Option Restriction :=
  firstBroken [(list == 0, .emptyList), (holds list rb.reg, .baseInList)]

end Sys2Proof.Machine

namespace Sys2Proof

open Machine in
/-- The restriction of R197 or R206 an instruction's registers break, if they break one. -/
def Instr.broken : Instr → Option Restriction
  | .armAnd _ _ rn rd op2 | .armEor _ _ rn rd op2 | .armSub _ _ rn rd op2 | .armRsb _ _ rn rd op2
  | .armAdd _ _ rn rd op2 | .armAdc _ _ rn rd op2 | .armSbc _ _ rn rd op2 | .armRsc _ _ rn rd op2
  | .armOrr _ _ rn rd op2 | .armBic _ _ rn rd op2 => op2Restriction rn rd op2
  | .armTst _ rn op2 | .armTeq _ rn op2 | .armCmp _ rn op2 | .armCmn _ rn op2 => op2Restriction rn 0 op2
  | .armMov _ _ rd op2 | .armMvn _ _ rd op2 => op2Restriction 0 rd op2
  | .armMul _ _ rd rs rm => mulRestriction rd 0 rs rm
  | .armMla _ _ rd rn rs rm => mulRestriction rd rn rs rm
  | .armUmull _ _ rdHi rdLo rs rm | .armUmlal _ _ rdHi rdLo rs rm
  | .armSmull _ _ rdHi rdLo rs rm | .armSmlal _ _ rdHi rdLo rs rm => longMulRestriction rdHi rdLo rs rm
  | .armSwp _ rn rd rm | .armSwpb _ rn rd rm => swapRestriction rn rd rm
  | .armMrs _ _ rd => notPcRestriction rd
  | .armMsrReg _ _ _ rm => notPcRestriction rm
  | .armMsrImm .. => none
  | .armBx _ rm => notPcRestriction rm
  | .armB .. | .armBl .. => none
  | .armLdr _ index _ rn rd off | .armStr _ index _ rn rd off =>
      mode2Restriction index.writesBack rn rd off
  | .armLdrb _ index _ rn rd off | .armStrb _ index _ rn rd off =>
      mode2DataRestriction index.writesBack rn rd off
  | .armLdrt _ _ rn rd off | .armStrt _ _ rn rd off | .armLdrbt _ _ rn rd off
  | .armStrbt _ _ rn rd off => mode2DataRestriction true rn rd off
  | .armStrh _ index _ rn rd off | .armLdrh _ index _ rn rd off | .armLdrsb _ index _ rn rd off
  | .armLdrsh _ index _ rn rd off => mode3Restriction index.writesBack rn rd off
  | .armLdmia _ sf wb rn list | .armLdmib _ sf wb rn list | .armLdmda _ sf wb rn list
  | .armLdmdb _ sf wb rn list => ldmRestriction sf wb rn list
  | .armStmia _ sf wb rn list | .armStmib _ sf wb rn list | .armStmda _ sf wb rn list
  | .armStmdb _ sf wb rn list => stmRestriction sf wb rn list
  | .armSwi .. | .armCdp .. => none
  | .armLdc _ p up _ wb rn _ _ _ | .armStc _ p up _ wb rn _ _ _ => ldcRestriction p up wb rn
  | .armMcr _ _ _ rd _ _ _ => notPcRestriction rd
  | .armMrc .. => none
  | .armUndefMedia .. | .armUndefMsr .. => none
  | .thumbLslImm .. | .thumbLsrImm .. | .thumbAsrImm .. | .thumbAddReg .. | .thumbSubReg ..
  | .thumbAddImm3 .. | .thumbSubImm3 .. | .thumbMovImm .. | .thumbCmpImm .. | .thumbAddImm8 ..
  | .thumbSubImm8 .. | .thumbAnd .. | .thumbEor .. | .thumbLslReg .. | .thumbLsrReg ..
  | .thumbAsrReg .. | .thumbAdc .. | .thumbSbc .. | .thumbRor .. | .thumbTst .. | .thumbNeg ..
  | .thumbCmpReg .. | .thumbCmn .. | .thumbOrr .. | .thumbBic .. | .thumbMvn .. => none
  | .thumbMul rs rd => thumbMulRestriction rs rd
  | .thumbAddHi rm rd | .thumbMovHi rm rd => highRestriction rm rd
  | .thumbCmpHi rm rd => cmpHighRestriction rm rd
  | .thumbBx .. | .thumbLdrPc .. | .thumbStrReg .. | .thumbStrbReg .. | .thumbLdrReg ..
  | .thumbLdrbReg .. | .thumbStrhReg .. | .thumbLdrsbReg .. | .thumbLdrhReg .. | .thumbLdrshReg ..
  | .thumbStrImm .. | .thumbLdrImm .. | .thumbStrbImm .. | .thumbLdrbImm .. | .thumbStrhImm ..
  | .thumbLdrhImm .. | .thumbStrSp .. | .thumbLdrSp .. | .thumbAddPc .. | .thumbAddSp ..
  | .thumbIncSp .. | .thumbDecSp .. => none
  | .thumbPush extra list | .thumbPop extra list => pushRestriction extra list
  | .thumbStmia rb list => thumbStmiaRestriction rb list
  | .thumbLdmia rb list => thumbLdmiaRestriction rb list
  | .thumbBCond .. | .thumbSwi .. | .thumbB .. | .thumbBlHigh .. | .thumbBlLow ..
  | .thumbUndefB .. | .thumbUndefDe .. | .thumbUndefE8 .. => none

/-- The registers operand 2 reads. -/
def Operand2.regs : Operand2 → List Reg
  | .imm _ _ => []
  | .shiftImm _ _ rm => [rm]
  | .shiftReg _ rs rm => [rs, rm]

/-- The registers an offset of addressing mode 2 reads. -/
def Offset2.regs : Offset2 → List Reg
  | .imm _ => []
  | .reg _ _ rm => [rm]

/-- The registers an offset of addressing mode 3 reads. -/
def Offset3.regs : Offset3 → List Reg
  | .imm _ => []
  | .reg rm => [rm]

/-- The numbers of the bits set in a register list, from a number on. -/
def listedRegs {w : Nat} (list : BitVec w) : List Reg :=
  ((List.range w).filter fun i => list.getLsbD i).map fun i => BitVec.ofNat 4 i

/-- The registers, by number, that an instruction names to read or write in the current mode's bank
(R586). A SWI or an undefined instruction names none: what it writes belongs to the mode it enters. A
User-bank transfer names its base alone: its list is of User registers (DESIGN CHOICE, log 35). -/
def Instr.regs : Instr → List Reg
  | .armAnd _ _ rn rd op2 | .armEor _ _ rn rd op2 | .armSub _ _ rn rd op2 | .armRsb _ _ rn rd op2
  | .armAdd _ _ rn rd op2 | .armAdc _ _ rn rd op2 | .armSbc _ _ rn rd op2 | .armRsc _ _ rn rd op2
  | .armOrr _ _ rn rd op2 | .armBic _ _ rn rd op2 => rn :: rd :: op2.regs
  | .armTst _ rn op2 | .armTeq _ rn op2 | .armCmp _ rn op2 | .armCmn _ rn op2 => rn :: op2.regs
  | .armMov _ _ rd op2 | .armMvn _ _ rd op2 => rd :: op2.regs
  | .armMul _ _ rd rs rm => [rd, rs, rm]
  | .armMla _ _ rd rn rs rm => [rd, rn, rs, rm]
  | .armUmull _ _ rdHi rdLo rs rm | .armUmlal _ _ rdHi rdLo rs rm
  | .armSmull _ _ rdHi rdLo rs rm | .armSmlal _ _ rdHi rdLo rs rm => [rdHi, rdLo, rs, rm]
  | .armSwp _ rn rd rm | .armSwpb _ rn rd rm => [rn, rd, rm]
  | .armMrs _ _ rd => [rd]
  | .armMsrReg _ _ _ rm => [rm]
  | .armMsrImm .. => []
  | .armBx _ rm => [rm]
  | .armB .. => []
  | .armBl .. => [14]
  | .armLdr _ _ _ rn rd off | .armStr _ _ _ rn rd off | .armLdrb _ _ _ rn rd off
  | .armStrb _ _ _ rn rd off => rn :: rd :: off.regs
  | .armLdrt _ _ rn rd off | .armStrt _ _ rn rd off | .armLdrbt _ _ rn rd off
  | .armStrbt _ _ rn rd off => rn :: rd :: off.regs
  | .armStrh _ _ _ rn rd off | .armLdrh _ _ _ rn rd off | .armLdrsb _ _ _ rn rd off
  | .armLdrsh _ _ _ rn rd off => rn :: rd :: off.regs
  | .armLdmia _ sf _ rn list | .armLdmib _ sf _ rn list | .armLdmda _ sf _ rn list
  | .armLdmdb _ sf _ rn list => rn :: if sf && !list.getLsbD 15 then [] else listedRegs list
  | .armStmia _ sf _ rn list | .armStmib _ sf _ rn list | .armStmda _ sf _ rn list
  | .armStmdb _ sf _ rn list => rn :: if sf then [] else listedRegs list
  | .armSwi .. | .armCdp .. => []
  | .armLdc _ _ _ _ _ rn _ _ _ | .armStc _ _ _ _ _ rn _ _ _ => [rn]
  | .armMcr _ _ _ rd _ _ _ | .armMrc _ _ _ rd _ _ _ => [rd]
  | .armUndefMedia .. | .armUndefMsr .. => []
  | .thumbLslImm _ rs rd | .thumbLsrImm _ rs rd | .thumbAsrImm _ rs rd => [rs.reg, rd.reg]
  | .thumbAddReg rn rs rd | .thumbSubReg rn rs rd => [rn.reg, rs.reg, rd.reg]
  | .thumbAddImm3 _ rs rd | .thumbSubImm3 _ rs rd => [rs.reg, rd.reg]
  | .thumbMovImm rd _ | .thumbCmpImm rd _ | .thumbAddImm8 rd _ | .thumbSubImm8 rd _ => [rd.reg]
  | .thumbAnd rs rd | .thumbEor rs rd | .thumbLslReg rs rd | .thumbLsrReg rs rd
  | .thumbAsrReg rs rd | .thumbAdc rs rd | .thumbSbc rs rd | .thumbRor rs rd | .thumbTst rs rd
  | .thumbNeg rs rd | .thumbCmpReg rs rd | .thumbCmn rs rd | .thumbOrr rs rd | .thumbMul rs rd
  | .thumbBic rs rd | .thumbMvn rs rd => [rs.reg, rd.reg]
  | .thumbAddHi rm rd | .thumbCmpHi rm rd | .thumbMovHi rm rd => [rm, rd]
  | .thumbBx rm => [rm]
  | .thumbLdrPc rd _ => [rd.reg]
  | .thumbStrReg ro rb rd | .thumbStrbReg ro rb rd | .thumbLdrReg ro rb rd | .thumbLdrbReg ro rb rd
  | .thumbStrhReg ro rb rd | .thumbLdrsbReg ro rb rd | .thumbLdrhReg ro rb rd
  | .thumbLdrshReg ro rb rd => [ro.reg, rb.reg, rd.reg]
  | .thumbStrImm _ rb rd | .thumbLdrImm _ rb rd | .thumbStrbImm _ rb rd | .thumbLdrbImm _ rb rd
  | .thumbStrhImm _ rb rd | .thumbLdrhImm _ rb rd => [rb.reg, rd.reg]
  | .thumbStrSp rd _ | .thumbLdrSp rd _ => [13, rd.reg]
  | .thumbAddPc rd _ => [rd.reg]
  | .thumbAddSp rd _ => [13, rd.reg]
  | .thumbIncSp _ | .thumbDecSp _ => [13]
  | .thumbPush lr list => if lr then 13 :: 14 :: listedRegs list else 13 :: listedRegs list
  | .thumbPop _ list => 13 :: listedRegs list
  | .thumbStmia rb list | .thumbLdmia rb list => rb.reg :: listedRegs list
  | .thumbBCond .. | .thumbSwi .. | .thumbB .. => []
  | .thumbBlHigh .. | .thumbBlLow .. => [14]
  | .thumbUndefB .. | .thumbUndefDe .. | .thumbUndefE8 .. => []

end Sys2Proof
end

