-- ==== Sys2Proof/WellFormed.lean ====
section
/-! DEFINITION. Which terms of `Instr` are instructions: the encoding has room for them (the undefined
and conditional Thumb forms share their rows with other instructions) and their registers break no
restriction of R197 and R206. -/

namespace Sys2Proof

/-- Whether the encoding's row belongs to this instruction with these fields: the fourteen conditions of
the Thumb branch (R475), the unallocated words of row 15 of R199, which rows 13 and 14 take out. -/
def Instr.encodable : Instr → Bool
  | .thumbBCond c _ => c != .al
  | .thumbUndefB lo => lo.extractLsb' 8 4 != 0 && lo.extractLsb' 9 2 != 2
  | _ => true

/-- A well-formed instruction. -/
def Instr.WellFormed (i : Instr) : Prop := i.encodable = true ∧ i.broken = none

/-- Well-formedness as a computation. -/
def Instr.wellFormed (i : Instr) : Bool := i.encodable && i.broken == none

theorem Instr.wellFormed_iff (i : Instr) : i.wellFormed = true ↔ i.WellFormed := by
  simp [Instr.wellFormed, Instr.WellFormed]

end Sys2Proof
end

