-- ==== Sys2Proof/Decode.lean ====
section
/-! DEFINITION. The decoder (R184, R199, R209), total on words, rejecting by name, and the encoder
(R180, R181). A register restriction is no matter of decoding: such a word decodes and the instruction's
meaning refuses it. -/

namespace Sys2Proof

/-- Why a word is no instruction: the encodings of R197, R198 and R206 that no instruction's registers
can mend. All are UNPREDICTABLE in the spec (U15, U16). -/
inductive DecodeError where
  /-- Condition field b1111 (R198). -/
  | condition1111
  /-- A Should Be Zero field that is not zero (R197, R262, R276). -/
  | sbz
  /-- Row 6 of R184, the unallocated multiply and extra load/store space. -/
  | multiplySpace
  /-- Row 11 of R184, the unallocated control space. -/
  | controlSpace
  /-- Addressing mode 3 with P = 0 and W = 1 (R190). -/
  | mode3PostWriteBack
  /-- Thumb BX with H1 = 1 or bits [2:0] not zero (R206, R429). -/
  | thumbBx
  deriving DecidableEq, Repr

/-- The condition codes (R182). -/
def Cond.ofBits (b : BitVec 4) : Option Cond :=
  match b with
  | 0 => some .eq | 1 => some .ne | 2 => some .cs | 3 => some .cc
  | 4 => some .mi | 5 => some .pl | 6 => some .vs | 7 => some .vc
  | 8 => some .hi | 9 => some .ls | 10 => some .ge | 11 => some .lt
  | 12 => some .gt | 13 => some .le | 14 => some .al | _ => none

/-- The code of a condition (R182). -/
def Cond.bits : Cond → BitVec 4
  | .eq => 0 | .ne => 1 | .cs => 2 | .cc => 3 | .mi => 4 | .pl => 5 | .vs => 6 | .vc => 7
  | .hi => 8 | .ls => 9 | .ge => 10 | .lt => 11 | .gt => 12 | .le => 13 | .al => 14

/-- The shift field (R186). -/
def ShiftType.ofBits (b : BitVec 2) : ShiftType :=
  match b with
  | 0 => .lsl | 1 => .lsr | 2 => .asr | _ => .ror

/-- The code of a shift (R186). -/
def ShiftType.bits : ShiftType → BitVec 2
  | .lsl => 0 | .lsr => 1 | .asr => 2 | .ror => 3

/-- One bit of a word, as a flag. -/
def bitAt {w : Nat} (x : BitVec w) (i : Nat) : Bool := x.extractLsb' i 1 == 1#1

/-- A flag as one bit. -/
def flagBit (b : Bool) : BitVec 1 := if b then 1#1 else 0#1

/-! ## ARM -/

/-- A destination-writing data-processing opcode, or a compare or test (R210): MOV and MVN need Rn zero,
the tests Rd zero (R262). The tests come here only with S = 1. -/
def decodeDataProc (c : Cond) (opcode : BitVec 4) (sf : Bool) (rn rd : Reg) (op2 : Operand2) :
    Except DecodeError Instr :=
  match opcode with
  | 0 => .ok (.armAnd c sf rn rd op2)
  | 1 => .ok (.armEor c sf rn rd op2)
  | 2 => .ok (.armSub c sf rn rd op2)
  | 3 => .ok (.armRsb c sf rn rd op2)
  | 4 => .ok (.armAdd c sf rn rd op2)
  | 5 => .ok (.armAdc c sf rn rd op2)
  | 6 => .ok (.armSbc c sf rn rd op2)
  | 7 => .ok (.armRsc c sf rn rd op2)
  | 8 => if rd = 0 then .ok (.armTst c rn op2) else .error .sbz
  | 9 => if rd = 0 then .ok (.armTeq c rn op2) else .error .sbz
  | 10 => if rd = 0 then .ok (.armCmp c rn op2) else .error .sbz
  | 11 => if rd = 0 then .ok (.armCmn c rn op2) else .error .sbz
  | 12 => .ok (.armOrr c sf rn rd op2)
  | 13 => if rn = 0 then .ok (.armMov c sf rd op2) else .error .sbz
  | 14 => .ok (.armBic c sf rn rd op2)
  | _ => if rn = 0 then .ok (.armMvn c sf rd op2) else .error .sbz

/-- The multiplies of rows 2 and 3 of R184 and the swaps of row 4: bits [7:4] are 1001. -/
def decodeMultiply (c : Cond) (w : Word) : Except DecodeError Instr :=
  let hi : Reg := w.extractLsb' 16 4
  let lo : Reg := w.extractLsb' 12 4
  let rs : Reg := w.extractLsb' 8 4
  let rm : Reg := w.extractLsb' 0 4
  let sf := bitAt w 20
  if w.extractLsb' 22 3 = 0 then
    if bitAt w 21 then .ok (.armMla c sf hi lo rs rm)
    else if lo = 0 then .ok (.armMul c sf hi rs rm) else .error .sbz
  else if w.extractLsb' 23 2 = 1 then
    match w.extractLsb' 21 2 with
    | 0 => .ok (.armUmull c sf hi lo rs rm)
    | 1 => .ok (.armUmlal c sf hi lo rs rm)
    | 2 => .ok (.armSmull c sf hi lo rs rm)
    | _ => .ok (.armSmlal c sf hi lo rs rm)
  else if w.extractLsb' 23 2 = 2 ∧ w.extractLsb' 20 2 = 0 ∧ rs = 0 then
    .ok (if bitAt w 22 then .armSwpb c hi lo rm else .armSwp c hi lo rm)
  else .error .multiplySpace

/-- P and W of addressing mode 3, and of mode 2 away from the T variants. -/
def indexOf (p wb : Bool) : Index := if p then (if wb then .pre else .offset) else .post

/-- The halfword and signed transfers of row 5 of R184. -/
def decodeHalfword (c : Cond) (w : Word) : Except DecodeError Instr :=
  let p := bitAt w 24
  let up := bitAt w 23
  let wb := bitAt w 21
  let rn : Reg := w.extractLsb' 16 4
  let rd : Reg := w.extractLsb' 12 4
  let immediate := bitAt w 22
  let off : Offset3 :=
    if immediate then .imm (w.extractLsb' 8 4 ++ w.extractLsb' 0 4) else .reg (w.extractLsb' 0 4)
  if bitAt w 20 = false ∧ w.extractLsb' 5 2 ≠ 1 then .error .multiplySpace
  else if p = false ∧ wb = true then .error .mode3PostWriteBack
  else if immediate = false ∧ w.extractLsb' 8 4 ≠ 0#4 then .error .sbz
  else match w.extractLsb' 5 2 with
    | 1 => .ok (if bitAt w 20 then .armLdrh c (indexOf p wb) up rn rd off
                else .armStrh c (indexOf p wb) up rn rd off)
    | 2 => .ok (.armLdrsb c (indexOf p wb) up rn rd off)
    | _ => .ok (.armLdrsh c (indexOf p wb) up rn rd off)

/-- Bits [27:23] = 00010 and S = 0: BX, MRS and MSR from a register, rows 1, 7, 8 and 11 of R184. -/
def decodeControl (c : Cond) (w : Word) : Except DecodeError Instr :=
  if w.extractLsb' 4 19 = 0x2fff1#19 then .ok (.armBx c (w.extractLsb' 0 4))
  else if bitAt w 21 = false ∧ w.extractLsb' 16 4 = 15#4 ∧ w.extractLsb' 0 12 = 0#12 then
    .ok (.armMrs c (bitAt w 22) (w.extractLsb' 12 4))
  else if bitAt w 21 = true ∧ w.extractLsb' 4 12 = 0xf00#12 then
    .ok (.armMsrReg c (bitAt w 22) (w.extractLsb' 16 4) (w.extractLsb' 0 4))
  else .error .controlSpace

/-- Bits [27:25] = 000. -/
def decodeRegisterForms (c : Cond) (w : Word) : Except DecodeError Instr :=
  if bitAt w 7 = true ∧ bitAt w 4 = true then
    if w.extractLsb' 5 2 = 0 then decodeMultiply c w else decodeHalfword c w
  else if w.extractLsb' 23 2 = 2 ∧ bitAt w 20 = false then decodeControl c w
  else
    let rm : Reg := w.extractLsb' 0 4
    let sh := ShiftType.ofBits (w.extractLsb' 5 2)
    decodeDataProc c (w.extractLsb' 21 4) (bitAt w 20) (w.extractLsb' 16 4) (w.extractLsb' 12 4)
      (if bitAt w 4 then .shiftReg sh (w.extractLsb' 8 4) rm else .shiftImm sh (w.extractLsb' 7 5) rm)

/-- Bits [27:25] = 001: data processing with an immediate, MSR immediate, and rows 10 and 11 of R184. -/
def decodeImmediateForms (c : Cond) (w : Word) : Except DecodeError Instr :=
  if w.extractLsb' 23 2 = 2 ∧ bitAt w 20 = false then
    if bitAt w 21 then
      if w.extractLsb' 12 4 = 15#4 then
        .ok (.armMsrImm c (bitAt w 22) (w.extractLsb' 16 4) (w.extractLsb' 8 4) (w.extractLsb' 0 8))
      else .error .controlSpace
    else .ok (.armUndefMsr c (bitAt w 22) (w.extractLsb' 0 20))
  else
    decodeDataProc c (w.extractLsb' 21 4) (bitAt w 20) (w.extractLsb' 16 4) (w.extractLsb' 12 4)
      (.imm (w.extractLsb' 8 4) (w.extractLsb' 0 8))

/-- Addressing mode 2 transfers (row 14 of R184). -/
def decodeTransfer (c : Cond) (w : Word) (off : Offset2) : Instr :=
  let p := bitAt w 24
  let up := bitAt w 23
  let wb := bitAt w 21
  let rn : Reg := w.extractLsb' 16 4
  let rd : Reg := w.extractLsb' 12 4
  if p = false ∧ wb = true then
    if bitAt w 22 then
      if bitAt w 20 then .armLdrbt c up rn rd off else .armStrbt c up rn rd off
    else if bitAt w 20 then .armLdrt c up rn rd off else .armStrt c up rn rd off
  else if bitAt w 22 then
    if bitAt w 20 then .armLdrb c (indexOf p wb) up rn rd off
    else .armStrb c (indexOf p wb) up rn rd off
  else if bitAt w 20 then .armLdr c (indexOf p wb) up rn rd off
  else .armStr c (indexOf p wb) up rn rd off

/-- Block transfers (row 15 of R184, P and U of R191). -/
def decodeBlock (c : Cond) (w : Word) : Instr :=
  let sf := bitAt w 22
  let wb := bitAt w 21
  let rn : Reg := w.extractLsb' 16 4
  let list : BitVec 16 := w.extractLsb' 0 16
  if bitAt w 20 then
    match w.extractLsb' 23 2 with
    | 1 => .armLdmia c sf wb rn list
    | 3 => .armLdmib c sf wb rn list
    | 0 => .armLdmda c sf wb rn list
    | _ => .armLdmdb c sf wb rn list
  else
    match w.extractLsb' 23 2 with
    | 1 => .armStmia c sf wb rn list
    | 3 => .armStmib c sf wb rn list
    | 0 => .armStmda c sf wb rn list
    | _ => .armStmdb c sf wb rn list

/-- Coprocessor transfers (row 17 of R184). -/
def decodeCoprocTransfer (c : Cond) (w : Word) : Instr :=
  let p := bitAt w 24
  let up := bitAt w 23
  let n := bitAt w 22
  let wb := bitAt w 21
  let rn : Reg := w.extractLsb' 16 4
  let crd : BitVec 4 := w.extractLsb' 12 4
  let cp : BitVec 4 := w.extractLsb' 8 4
  let off : BitVec 8 := w.extractLsb' 0 8
  if bitAt w 20 then .armLdc c p up n wb rn crd cp off else .armStc c p up n wb rn crd cp off

/-- CDP, MCR, MRC and SWI (rows 18 to 20 of R184). -/
def decodeCoproc (c : Cond) (w : Word) : Instr :=
  let r16 : BitVec 4 := w.extractLsb' 16 4
  let r12 : BitVec 4 := w.extractLsb' 12 4
  let cp : BitVec 4 := w.extractLsb' 8 4
  let op2 : BitVec 3 := w.extractLsb' 5 3
  let crm : BitVec 4 := w.extractLsb' 0 4
  if bitAt w 24 then .armSwi c (w.extractLsb' 0 24)
  else if bitAt w 4 then
    if bitAt w 20 then .armMrc c (w.extractLsb' 21 3) r16 r12 cp op2 crm
    else .armMcr c (w.extractLsb' 21 3) r16 r12 cp op2 crm
  else .armCdp c (w.extractLsb' 20 4) r16 r12 cp op2 crm

/-- The ARM decoder (R184). -/
def decodeArm (w : Word) : Except DecodeError Instr :=
  match Cond.ofBits (w.extractLsb' 28 4) with
  | none => .error .condition1111
  | some c =>
    match w.extractLsb' 25 3 with
    | 0 => decodeRegisterForms c w
    | 1 => decodeImmediateForms c w
    | 2 => .ok (decodeTransfer c w (.imm (w.extractLsb' 0 12)))
    | 3 =>
      if bitAt w 4 then .ok (.armUndefMedia c (w.extractLsb' 5 20) (w.extractLsb' 0 4))
      else .ok (decodeTransfer c w
        (.reg (ShiftType.ofBits (w.extractLsb' 5 2)) (w.extractLsb' 7 5) (w.extractLsb' 0 4)))
    | 4 => .ok (decodeBlock c w)
    | 5 => .ok (if bitAt w 24 then .armBl c (w.extractLsb' 0 24) else .armB c (w.extractLsb' 0 24))
    | 6 => .ok (decodeCoprocTransfer c w)
    | _ => .ok (decodeCoproc c w)

/-! ## Thumb -/

/-- Format 4 (R199 row 4). -/
def decodeThumbAlu (op : BitVec 4) (rs rd : LowReg) : Instr :=
  match op with
  | 0 => .thumbAnd rs rd
  | 1 => .thumbEor rs rd
  | 2 => .thumbLslReg rs rd
  | 3 => .thumbLsrReg rs rd
  | 4 => .thumbAsrReg rs rd
  | 5 => .thumbAdc rs rd
  | 6 => .thumbSbc rs rd
  | 7 => .thumbRor rs rd
  | 8 => .thumbTst rs rd
  | 9 => .thumbNeg rs rd
  | 10 => .thumbCmpReg rs rd
  | 11 => .thumbCmn rs rd
  | 12 => .thumbOrr rs rd
  | 13 => .thumbMul rs rd
  | 14 => .thumbBic rs rd
  | _ => .thumbMvn rs rd

/-- Format 5 (R199 row 5): the full register numbers are H1 and bits [2:0], H2 and bits [5:3]. -/
def decodeThumbHigh (h : Half) : Except DecodeError Instr :=
  let rm : Reg := h.extractLsb' 3 4
  let rd : Reg := h.extractLsb' 7 1 ++ h.extractLsb' 0 3
  match h.extractLsb' 8 2 with
  | 0 => .ok (.thumbAddHi rm rd)
  | 1 => .ok (.thumbCmpHi rm rd)
  | 2 => .ok (.thumbMovHi rm rd)
  | _ => if rd = 0 then .ok (.thumbBx rm) else .error .thumbBx

/-- Formats 7 and 8 (R199 rows 7 and 8). -/
def decodeThumbRegOffset (h : Half) : Instr :=
  let ro : LowReg := h.extractLsb' 6 3
  let rb : LowReg := h.extractLsb' 3 3
  let rd : LowReg := h.extractLsb' 0 3
  match h.extractLsb' 9 3 with
  | 0 => .thumbStrReg ro rb rd
  | 1 => .thumbStrhReg ro rb rd
  | 2 => .thumbStrbReg ro rb rd
  | 3 => .thumbLdrsbReg ro rb rd
  | 4 => .thumbLdrReg ro rb rd
  | 5 => .thumbLdrhReg ro rb rd
  | 6 => .thumbLdrbReg ro rb rd
  | _ => .thumbLdrshReg ro rb rd

/-- Words 0xB000 to 0xBFFF: formats 13 and 14 and the unallocated rest (R199 rows 13 to 15). -/
def decodeThumbMisc (h : Half) : Instr :=
  if h.extractLsb' 8 4 = 0#4 then
    if bitAt h 7 then .thumbDecSp (h.extractLsb' 0 7) else .thumbIncSp (h.extractLsb' 0 7)
  else if h.extractLsb' 9 2 = 2#2 then
    if bitAt h 11 then .thumbPop (bitAt h 8) (h.extractLsb' 0 8)
    else .thumbPush (bitAt h 8) (h.extractLsb' 0 8)
  else .thumbUndefB (h.extractLsb' 0 12)

/-- Words 0xD000 to 0xDFFF: formats 16 and 17 (R199 rows 17 to 19). -/
def decodeThumbCond (h : Half) : Instr :=
  match Cond.ofBits (h.extractLsb' 8 4) with
  | none => .thumbSwi (h.extractLsb' 0 8)
  | some .al => .thumbUndefDe (h.extractLsb' 0 8)
  | some c => .thumbBCond c (h.extractLsb' 0 8)

/-- Words 0x0000 to 0x3FFF: formats 1, 2 and 3 (R199 rows 1 to 3). -/
def decodeThumbImm (h : Half) : Instr :=
  let field : LowReg := h.extractLsb' 6 3
  let rs : LowReg := h.extractLsb' 3 3
  let rd : LowReg := h.extractLsb' 0 3
  let imm5 : BitVec 5 := h.extractLsb' 6 5
  let rd8 : LowReg := h.extractLsb' 8 3
  let imm8 : BitVec 8 := h.extractLsb' 0 8
  match h.extractLsb' 11 3 with
  | 0 => .thumbLslImm imm5 rs rd
  | 1 => .thumbLsrImm imm5 rs rd
  | 2 => .thumbAsrImm imm5 rs rd
  | 3 =>
    match h.extractLsb' 9 2 with
    | 0 => .thumbAddReg field rs rd
    | 1 => .thumbSubReg field rs rd
    | 2 => .thumbAddImm3 field rs rd
    | _ => .thumbSubImm3 field rs rd
  | 4 => .thumbMovImm rd8 imm8
  | 5 => .thumbCmpImm rd8 imm8
  | 6 => .thumbAddImm8 rd8 imm8
  | _ => .thumbSubImm8 rd8 imm8

/-- Words 0x6000 to 0x9FFF: formats 9, 10 and 11 (R199 rows 9 to 11). -/
def decodeThumbOffset (h : Half) : Instr :=
  let imm5 : BitVec 5 := h.extractLsb' 6 5
  let rb : LowReg := h.extractLsb' 3 3
  let rd : LowReg := h.extractLsb' 0 3
  let rd8 : LowReg := h.extractLsb' 8 3
  let word8 : BitVec 8 := h.extractLsb' 0 8
  match h.extractLsb' 11 5 with
  | 12 => .thumbStrImm imm5 rb rd
  | 13 => .thumbLdrImm imm5 rb rd
  | 14 => .thumbStrbImm imm5 rb rd
  | 15 => .thumbLdrbImm imm5 rb rd
  | 16 => .thumbStrhImm imm5 rb rd
  | 17 => .thumbLdrhImm imm5 rb rd
  | 18 => .thumbStrSp rd8 word8
  | _ => .thumbLdrSp rd8 word8

/-- The Thumb decoder (R199). -/
def decodeThumb (h : Half) : Except DecodeError Instr :=
  let rd8 : LowReg := h.extractLsb' 8 3
  let imm8 : BitVec 8 := h.extractLsb' 0 8
  match h.extractLsb' 12 4 with
  | 0 | 1 | 2 | 3 => .ok (decodeThumbImm h)
  | 4 =>
    if bitAt h 11 then .ok (.thumbLdrPc rd8 imm8)
    else if bitAt h 10 then decodeThumbHigh h
    else .ok (decodeThumbAlu (h.extractLsb' 6 4) (h.extractLsb' 3 3) (h.extractLsb' 0 3))
  | 5 => .ok (decodeThumbRegOffset h)
  | 6 | 7 | 8 | 9 => .ok (decodeThumbOffset h)
  | 10 => .ok (if bitAt h 11 then .thumbAddSp rd8 imm8 else .thumbAddPc rd8 imm8)
  | 11 => .ok (decodeThumbMisc h)
  | 12 => .ok (if bitAt h 11 then .thumbLdmia rd8 imm8 else .thumbStmia rd8 imm8)
  | 13 => .ok (decodeThumbCond h)
  | 14 =>
    .ok (if bitAt h 11 then .thumbUndefE8 (h.extractLsb' 0 11) else .thumbB (h.extractLsb' 0 11))
  | _ =>
    .ok (if bitAt h 11 then .thumbBlLow (h.extractLsb' 0 11) else .thumbBlHigh (h.extractLsb' 0 11))

/-! ## Codes and bytes -/

/-- The code of an instruction: its length is fixed by the state it is executed in (R209). -/
inductive Code where
  | arm (w : Word)
  | thumb (h : Half)
  deriving DecidableEq, Repr

/-- The decoder. -/
def decode : Code → Except DecodeError Instr
  | .arm w => decodeArm w
  | .thumb h => decodeThumb h

/-- Two bytes, the lower address first, as the little-endian halfword they hold (R93). -/
def halfOfBytes (b0 b1 : Byte) : Half := b1 ++ b0

/-- Four bytes, the lowest address first, as the little-endian word they hold (R93). -/
def wordOfBytes (b0 b1 b2 b3 : Byte) : Word := b3 ++ b2 ++ b1 ++ b0

/-- What the decoder reads from an instruction's bytes, lowest address first, in the byte order of a
machine after reset (R92): four bytes in ARM state, two in Thumb state. -/
def decodeBytes : List Byte → Option Instr
  | [b0, b1] => (decode (.thumb (halfOfBytes b0 b1))).toOption
  | [b0, b1, b2, b3] => (decode (.arm (wordOfBytes b0 b1 b2 b3))).toOption
  | _ => none

/-- The n bytes a little-endian machine stores for a number, lowest address first. -/
def bytesOfNat : Nat → Nat → List Byte
  | 0, _ => []
  | n + 1, w => BitVec.ofNat 8 w :: bytesOfNat n (w / 256)

/-- The decoder on a row of spec/opcode_table.json, numbered as the table numbers the bits. -/
def decodeTableWord (nbits w : Nat) : Option Instr := decodeBytes (bytesOfNat (nbits / 8) w)

/-! ## The encoder -/

/-- The low twelve bits and bit 25 of a data-processing instruction (R185, R187, R188). -/
def Operand2.immediateBit : Operand2 → BitVec 1
  | .imm .. => 1
  | _ => 0

/-- The shifter operand field, bits [11:0]. -/
def Operand2.field : Operand2 → BitVec 12
  | .imm rotate imm8 => rotate ++ imm8
  | .shiftImm sh amount rm => amount ++ sh.bits ++ 0#1 ++ rm
  | .shiftReg sh rs rm => rs ++ 0#1 ++ sh.bits ++ 1#1 ++ rm

/-- A data-processing word (R180). -/
def encodeDataProc (c : Cond) (opcode : BitVec 4) (sf : Bool) (rn rd : Reg) (op2 : Operand2) : Word :=
  c.bits ++ 0#2 ++ op2.immediateBit ++ opcode ++ flagBit sf ++ rn ++ rd ++ op2.field

/-- A multiply or long multiply (R180): the five bits [24:21] and [27:25] are given as one field. -/
def encodeMultiply (c : Cond) (op : BitVec 7) (sf : Bool) (hi lo rs rm : Reg) : Word :=
  c.bits ++ op ++ flagBit sf ++ hi ++ lo ++ rs ++ 9#4 ++ rm

/-- A swap (R350). -/
def encodeSwap (c : Cond) (byte : Bool) (rn rd rm : Reg) : Word :=
  c.bits ++ 2#5 ++ flagBit byte ++ 0#2 ++ rn ++ rd ++ 0#4 ++ 9#4 ++ rm

/-- P of an addressing mode. -/
def Index.p : Index → BitVec 1
  | .post => 0
  | _ => 1

/-- W of an addressing mode. -/
def Index.w : Index → BitVec 1
  | .pre => 1
  | _ => 0

/-- Bit 25 of addressing mode 2 (R189). -/
def Offset2.registerBit : Offset2 → BitVec 1
  | .imm _ => 0
  | .reg .. => 1

/-- Bits [11:0] of addressing mode 2 (R189). -/
def Offset2.field : Offset2 → BitVec 12
  | .imm imm12 => imm12
  | .reg sh amount rm => amount ++ sh.bits ++ 0#1 ++ rm

/-- A word or byte transfer (R180): P, B, W, L. -/
def encodeTransfer (c : Cond) (p : BitVec 1) (up : Bool) (b w l : BitVec 1) (rn rd : Reg)
    (off : Offset2) : Word :=
  c.bits ++ 1#2 ++ off.registerBit ++ p ++ flagBit up ++ b ++ w ++ l ++ rn ++ rd ++ off.field

/-- Bit 22 of addressing mode 3 (R190). -/
def Offset3.immediateBit : Offset3 → BitVec 1
  | .imm _ => 1
  | .reg _ => 0

/-- Bits [11:8] of addressing mode 3 (R190). -/
def Offset3.high : Offset3 → BitVec 4
  | .imm imm8 => imm8.extractLsb' 4 4
  | .reg _ => 0

/-- Bits [3:0] of addressing mode 3 (R190). -/
def Offset3.low : Offset3 → BitVec 4
  | .imm imm8 => imm8.extractLsb' 0 4
  | .reg rm => rm

/-- A halfword or signed transfer (R180): L and S H. -/
def encodeHalfword (c : Cond) (index : Index) (up : Bool) (l : BitVec 1) (sh : BitVec 2) (rn rd : Reg)
    (off : Offset3) : Word :=
  c.bits ++ 0#3 ++ index.p ++ flagBit up ++ off.immediateBit ++ index.w ++ l ++ rn ++ rd ++ off.high ++
    1#1 ++ sh ++ 1#1 ++ off.low

/-- A block transfer (R180, R191): P U. -/
def encodeBlock (c : Cond) (pu : BitVec 2) (sf wb : Bool) (l : BitVec 1) (rn : Reg)
    (list : BitVec 16) : Word :=
  c.bits ++ 4#3 ++ pu ++ flagBit sf ++ flagBit wb ++ l ++ rn ++ list

/-- A coprocessor transfer (R180). -/
def encodeCoprocTransfer (c : Cond) (p up n wb : Bool) (l : BitVec 1) (rn : Reg)
    (crd cp : BitVec 4) (off : BitVec 8) : Word :=
  c.bits ++ 6#3 ++ flagBit p ++ flagBit up ++ flagBit n ++ flagBit wb ++ l ++ rn ++ crd ++ cp ++ off

/-- A coprocessor register transfer (R180). -/
def encodeCoprocRegister (c : Cond) (op1 : BitVec 3) (l : BitVec 1) (crn rd cp : BitVec 4)
    (op2 : BitVec 3) (crm : BitVec 4) : Word :=
  c.bits ++ 14#4 ++ op1 ++ l ++ crn ++ rd ++ cp ++ op2 ++ 1#1 ++ crm

/-- A Thumb word of formats 1 and 2, and 7 to 10: seven bits and three registers. -/
def encodeThumb3 (top : BitVec 7) (a b d : LowReg) : Half := top ++ a ++ b ++ d

/-- A Thumb word with a five-bit immediate (formats 1, 9, 10). -/
def encodeThumb5 (top : BitVec 5) (imm5 : BitVec 5) (b d : LowReg) : Half := top ++ imm5 ++ b ++ d

/-- A Thumb word with an eight-bit field (formats 3, 6, 11, 12, 15). -/
def encodeThumb8 (top : BitVec 5) (r : LowReg) (field : BitVec 8) : Half := top ++ r ++ field

/-- A Thumb word of format 4. -/
def encodeThumbAlu (op : BitVec 4) (s d : LowReg) : Half := 16#6 ++ op ++ s ++ d

/-- A Thumb word of format 5. -/
def encodeThumbHigh (op : BitVec 2) (rm rd : Reg) : Half :=
  17#6 ++ op ++ rd.extractLsb' 3 1 ++ rm ++ rd.extractLsb' 0 3

/-- The encoder (R180, R181): the word of an instruction. -/
def encode : Instr → Code
  | .armAnd c sf rn rd op2 => .arm (encodeDataProc c 0 sf rn rd op2)
  | .armEor c sf rn rd op2 => .arm (encodeDataProc c 1 sf rn rd op2)
  | .armSub c sf rn rd op2 => .arm (encodeDataProc c 2 sf rn rd op2)
  | .armRsb c sf rn rd op2 => .arm (encodeDataProc c 3 sf rn rd op2)
  | .armAdd c sf rn rd op2 => .arm (encodeDataProc c 4 sf rn rd op2)
  | .armAdc c sf rn rd op2 => .arm (encodeDataProc c 5 sf rn rd op2)
  | .armSbc c sf rn rd op2 => .arm (encodeDataProc c 6 sf rn rd op2)
  | .armRsc c sf rn rd op2 => .arm (encodeDataProc c 7 sf rn rd op2)
  | .armTst c rn op2 => .arm (encodeDataProc c 8 true rn 0 op2)
  | .armTeq c rn op2 => .arm (encodeDataProc c 9 true rn 0 op2)
  | .armCmp c rn op2 => .arm (encodeDataProc c 10 true rn 0 op2)
  | .armCmn c rn op2 => .arm (encodeDataProc c 11 true rn 0 op2)
  | .armOrr c sf rn rd op2 => .arm (encodeDataProc c 12 sf rn rd op2)
  | .armMov c sf rd op2 => .arm (encodeDataProc c 13 sf 0 rd op2)
  | .armBic c sf rn rd op2 => .arm (encodeDataProc c 14 sf rn rd op2)
  | .armMvn c sf rd op2 => .arm (encodeDataProc c 15 sf 0 rd op2)
  | .armMul c sf rd rs rm => .arm (encodeMultiply c 0 sf rd 0 rs rm)
  | .armMla c sf rd rn rs rm => .arm (encodeMultiply c 1 sf rd rn rs rm)
  | .armUmull c sf rdHi rdLo rs rm => .arm (encodeMultiply c 4 sf rdHi rdLo rs rm)
  | .armUmlal c sf rdHi rdLo rs rm => .arm (encodeMultiply c 5 sf rdHi rdLo rs rm)
  | .armSmull c sf rdHi rdLo rs rm => .arm (encodeMultiply c 6 sf rdHi rdLo rs rm)
  | .armSmlal c sf rdHi rdLo rs rm => .arm (encodeMultiply c 7 sf rdHi rdLo rs rm)
  | .armSwp c rn rd rm => .arm (encodeSwap c false rn rd rm)
  | .armSwpb c rn rd rm => .arm (encodeSwap c true rn rd rm)
  | .armMrs c spsr rd =>
      .arm (c.bits ++ 2#5 ++ flagBit spsr ++ 0#2 ++ 15#4 ++ rd ++ 0#12)
  | .armMsrReg c spsr mask rm =>
      .arm (c.bits ++ 2#5 ++ flagBit spsr ++ 2#2 ++ mask ++ 15#4 ++ 0#8 ++ rm)
  | .armMsrImm c spsr mask rotate imm8 =>
      .arm (c.bits ++ 6#5 ++ flagBit spsr ++ 2#2 ++ mask ++ 15#4 ++ rotate ++ imm8)
  | .armBx c rm => .arm (c.bits ++ 0x12fff1#24 ++ rm)
  | .armB c offset => .arm (c.bits ++ 10#4 ++ offset)
  | .armBl c offset => .arm (c.bits ++ 11#4 ++ offset)
  | .armLdr c index up rn rd off => .arm (encodeTransfer c index.p up 0 index.w 1 rn rd off)
  | .armStr c index up rn rd off => .arm (encodeTransfer c index.p up 0 index.w 0 rn rd off)
  | .armLdrb c index up rn rd off => .arm (encodeTransfer c index.p up 1 index.w 1 rn rd off)
  | .armStrb c index up rn rd off => .arm (encodeTransfer c index.p up 1 index.w 0 rn rd off)
  | .armLdrt c up rn rd off => .arm (encodeTransfer c 0 up 0 1 1 rn rd off)
  | .armStrt c up rn rd off => .arm (encodeTransfer c 0 up 0 1 0 rn rd off)
  | .armLdrbt c up rn rd off => .arm (encodeTransfer c 0 up 1 1 1 rn rd off)
  | .armStrbt c up rn rd off => .arm (encodeTransfer c 0 up 1 1 0 rn rd off)
  | .armStrh c index up rn rd off => .arm (encodeHalfword c index up 0 1 rn rd off)
  | .armLdrh c index up rn rd off => .arm (encodeHalfword c index up 1 1 rn rd off)
  | .armLdrsb c index up rn rd off => .arm (encodeHalfword c index up 1 2 rn rd off)
  | .armLdrsh c index up rn rd off => .arm (encodeHalfword c index up 1 3 rn rd off)
  | .armLdmia c sf wb rn list => .arm (encodeBlock c 1 sf wb 1 rn list)
  | .armLdmib c sf wb rn list => .arm (encodeBlock c 3 sf wb 1 rn list)
  | .armLdmda c sf wb rn list => .arm (encodeBlock c 0 sf wb 1 rn list)
  | .armLdmdb c sf wb rn list => .arm (encodeBlock c 2 sf wb 1 rn list)
  | .armStmia c sf wb rn list => .arm (encodeBlock c 1 sf wb 0 rn list)
  | .armStmib c sf wb rn list => .arm (encodeBlock c 3 sf wb 0 rn list)
  | .armStmda c sf wb rn list => .arm (encodeBlock c 0 sf wb 0 rn list)
  | .armStmdb c sf wb rn list => .arm (encodeBlock c 2 sf wb 0 rn list)
  | .armSwi c imm => .arm (c.bits ++ 15#4 ++ imm)
  | .armCdp c op1 crn crd cp op2 crm =>
      .arm (c.bits ++ 14#4 ++ op1 ++ crn ++ crd ++ cp ++ op2 ++ 0#1 ++ crm)
  | .armLdc c p up n wb rn crd cp off => .arm (encodeCoprocTransfer c p up n wb 1 rn crd cp off)
  | .armStc c p up n wb rn crd cp off => .arm (encodeCoprocTransfer c p up n wb 0 rn crd cp off)
  | .armMcr c op1 crn rd cp op2 crm => .arm (encodeCoprocRegister c op1 0 crn rd cp op2 crm)
  | .armMrc c op1 crn rd cp op2 crm => .arm (encodeCoprocRegister c op1 1 crn rd cp op2 crm)
  | .armUndefMedia c hi lo => .arm (c.bits ++ 3#3 ++ hi ++ 1#1 ++ lo)
  | .armUndefMsr c r lo => .arm (c.bits ++ 6#5 ++ flagBit r ++ 0#2 ++ lo)
  | .thumbLslImm imm5 rs rd => .thumb (encodeThumb5 0 imm5 rs rd)
  | .thumbLsrImm imm5 rs rd => .thumb (encodeThumb5 1 imm5 rs rd)
  | .thumbAsrImm imm5 rs rd => .thumb (encodeThumb5 2 imm5 rs rd)
  | .thumbAddReg rn rs rd => .thumb (encodeThumb3 12 rn rs rd)
  | .thumbSubReg rn rs rd => .thumb (encodeThumb3 13 rn rs rd)
  | .thumbAddImm3 imm3 rs rd => .thumb (encodeThumb3 14 imm3 rs rd)
  | .thumbSubImm3 imm3 rs rd => .thumb (encodeThumb3 15 imm3 rs rd)
  | .thumbMovImm rd imm8 => .thumb (encodeThumb8 4 rd imm8)
  | .thumbCmpImm rd imm8 => .thumb (encodeThumb8 5 rd imm8)
  | .thumbAddImm8 rd imm8 => .thumb (encodeThumb8 6 rd imm8)
  | .thumbSubImm8 rd imm8 => .thumb (encodeThumb8 7 rd imm8)
  | .thumbAnd rs rd => .thumb (encodeThumbAlu 0 rs rd)
  | .thumbEor rs rd => .thumb (encodeThumbAlu 1 rs rd)
  | .thumbLslReg rs rd => .thumb (encodeThumbAlu 2 rs rd)
  | .thumbLsrReg rs rd => .thumb (encodeThumbAlu 3 rs rd)
  | .thumbAsrReg rs rd => .thumb (encodeThumbAlu 4 rs rd)
  | .thumbAdc rs rd => .thumb (encodeThumbAlu 5 rs rd)
  | .thumbSbc rs rd => .thumb (encodeThumbAlu 6 rs rd)
  | .thumbRor rs rd => .thumb (encodeThumbAlu 7 rs rd)
  | .thumbTst rs rd => .thumb (encodeThumbAlu 8 rs rd)
  | .thumbNeg rs rd => .thumb (encodeThumbAlu 9 rs rd)
  | .thumbCmpReg rs rd => .thumb (encodeThumbAlu 10 rs rd)
  | .thumbCmn rs rd => .thumb (encodeThumbAlu 11 rs rd)
  | .thumbOrr rs rd => .thumb (encodeThumbAlu 12 rs rd)
  | .thumbMul rs rd => .thumb (encodeThumbAlu 13 rs rd)
  | .thumbBic rs rd => .thumb (encodeThumbAlu 14 rs rd)
  | .thumbMvn rs rd => .thumb (encodeThumbAlu 15 rs rd)
  | .thumbAddHi rm rd => .thumb (encodeThumbHigh 0 rm rd)
  | .thumbCmpHi rm rd => .thumb (encodeThumbHigh 1 rm rd)
  | .thumbMovHi rm rd => .thumb (encodeThumbHigh 2 rm rd)
  | .thumbBx rm => .thumb (encodeThumbHigh 3 rm 0)
  | .thumbLdrPc rd word8 => .thumb (encodeThumb8 9 rd word8)
  | .thumbStrReg ro rb rd => .thumb (encodeThumb3 40 ro rb rd)
  | .thumbStrhReg ro rb rd => .thumb (encodeThumb3 41 ro rb rd)
  | .thumbStrbReg ro rb rd => .thumb (encodeThumb3 42 ro rb rd)
  | .thumbLdrsbReg ro rb rd => .thumb (encodeThumb3 43 ro rb rd)
  | .thumbLdrReg ro rb rd => .thumb (encodeThumb3 44 ro rb rd)
  | .thumbLdrhReg ro rb rd => .thumb (encodeThumb3 45 ro rb rd)
  | .thumbLdrbReg ro rb rd => .thumb (encodeThumb3 46 ro rb rd)
  | .thumbLdrshReg ro rb rd => .thumb (encodeThumb3 47 ro rb rd)
  | .thumbStrImm imm5 rb rd => .thumb (encodeThumb5 12 imm5 rb rd)
  | .thumbLdrImm imm5 rb rd => .thumb (encodeThumb5 13 imm5 rb rd)
  | .thumbStrbImm imm5 rb rd => .thumb (encodeThumb5 14 imm5 rb rd)
  | .thumbLdrbImm imm5 rb rd => .thumb (encodeThumb5 15 imm5 rb rd)
  | .thumbStrhImm imm5 rb rd => .thumb (encodeThumb5 16 imm5 rb rd)
  | .thumbLdrhImm imm5 rb rd => .thumb (encodeThumb5 17 imm5 rb rd)
  | .thumbStrSp rd word8 => .thumb (encodeThumb8 18 rd word8)
  | .thumbLdrSp rd word8 => .thumb (encodeThumb8 19 rd word8)
  | .thumbAddPc rd word8 => .thumb (encodeThumb8 20 rd word8)
  | .thumbAddSp rd word8 => .thumb (encodeThumb8 21 rd word8)
  | .thumbIncSp word7 => .thumb (0xb0#8 ++ 0#1 ++ word7)
  | .thumbDecSp word7 => .thumb (0xb0#8 ++ 1#1 ++ word7)
  | .thumbPush lr list => .thumb (11#4 ++ 0#1 ++ 2#2 ++ flagBit lr ++ list)
  | .thumbPop pc list => .thumb (11#4 ++ 1#1 ++ 2#2 ++ flagBit pc ++ list)
  | .thumbStmia rb list => .thumb (encodeThumb8 24 rb list)
  | .thumbLdmia rb list => .thumb (encodeThumb8 25 rb list)
  | .thumbBCond c offset => .thumb (13#4 ++ c.bits ++ offset)
  | .thumbSwi imm => .thumb (0xdf#8 ++ imm)
  | .thumbB offset => .thumb (28#5 ++ offset)
  | .thumbBlHigh offset => .thumb (30#5 ++ offset)
  | .thumbBlLow offset => .thumb (31#5 ++ offset)
  | .thumbUndefB lo => .thumb (11#4 ++ lo)
  | .thumbUndefDe lo => .thumb (0xde#8 ++ lo)
  | .thumbUndefE8 lo => .thumb (29#5 ++ lo)

end Sys2Proof
end

