-- ==== Sys2Proof/Machine/State.lean ====
section
/-! DEFINITION. The state of the machine as plain data, the reasons it can stop, and the machine right
after reset (R80). -/

namespace Sys2Proof.Machine

/-! ## Stops -/

/-- Why the machine stops for good: the states only Reset leaves (R574). -/
inductive Fault where
  /-- The step raises it after an illegal value was written to CPSR.M: "the processor enters an
  unrecoverable state" (R35). Safe: the hardware has no defined step from there. -/
  | illegalMode
  /-- The step raises it after MSR changed CPSR.T: "the processor enters an Unpredictable state" (R33, U2).
  Safe: nothing is claimed of what follows. -/
  | stateBitChanged
  deriving DecidableEq, Repr

/-- Why the model gives a word, an operand or an access no meaning. Each is safe: the model stops where
the spec gives no effect. -/
inductive Refusal where
  /-- An instruction whose meaning is not written; no meaning raises it. -/
  | notModelled (mnemonic : String)
  /-- The step raises it on a word the decoder rejects by name (R197, R198, R206). -/
  | undecoded (e : DecodeError)
  /-- An instruction raises it when its registers break a restriction of R197 or R206 (U15). -/
  | unpredictable (r : Restriction)
  /-- MRS, MSR or a CPSR restore raises it in User or System mode: there is no SPSR (R37, U5). -/
  | noSpsr
  /-- LDM and STM of the User bank raise it in User or System mode (R333, R338). -/
  | userBankMode
  /-- BX raises it on an operand with bits [1:0] = b10 (R292). -/
  | bxMisaligned
  /-- STRH raises it on an odd address with A = 0 (R97, U20). -/
  | oddHalfwordStore
  /-- The step raises it when an instruction after a User-bank transfer names a banked register (R586,
  U27). -/
  | bankedAfterUserTransfer
  /-- The step raises it when execution runs past 0xFFFFFFFC (D13, U28). -/
  | ranOffTop
  /-- A table walk raises it on a tiny-page descriptor in a coarse table (R120, U23). -/
  | tinyPageInCoarse
  /-- A write of c1 raises it when it leaves C or W set and M clear (U10). -/
  | cacheWithoutMmu
  /-- MCR to c1, c2, c5 or c13 raises it, and a write through scan chain 15, when data bits that Should Be
  Zero are not (R43, R45, R47, R51, U8, U9). -/
  | cp15SbzBits
  /-- MRC or MCR to CP15 raises it on a register, CRm, opcode_1 or opcode_2 the spec gives no operation
  (R41, U7, U11, U12, U14). -/
  | cp15Unpredictable
  /-- A cache or MMU test operation raises it while the Test State Register is off (R54, U13). -/
  | testStateOff
  /-- A scan-chain event raises it on an address or encoding of R64 or R556 that is not defined, on the
  reserved SIZE b11 of a watchpoint unit (R67, U31), or on an instruction that may not be scanned in
  (R549). -/
  | debugUndefined
  /-- A debugger event that needs debug state raises it outside debug state (R549). -/
  | notInDebugState
  deriving DecidableEq, Repr

/-! ## Memory and the memory system -/

/-- Physical memory: address and byte, in the canonical form of Machine/Memory.lean. -/
abbrev Memory := List Host.Cell

/-- The width of an access (R99). -/
inductive Size where
  | byte | half | word
  deriving DecidableEq, Repr

/-- The kind of an access (R100). -/
inductive Access where
  | fetch | read | write | swapRead | swapWrite
  /-- The first word of a block transfer or of LDC (R331): a read and a write as any, in a burst on the bus. A
  word of STC is a plain write (R361). -/
  | blockRead | blockWrite
  /-- A later word of it. -/
  | nextRead | nextWrite
  deriving DecidableEq, Repr

/-- HTRANS of a transfer (R159); an IDLE cycle is no transfer, and BUSY is never inserted. -/
inductive TransType where
  /-- The first transfer of a burst, or a single one. -/
  | nonseq
  /-- At the address of the transfer before it plus the size. -/
  | seq
  deriving DecidableEq, Repr

/-- HBURST (R160). -/
inductive Burst where
  | single | incr | incr8
  deriving DecidableEq, Repr

/-- A write the buffer has accepted and the bus has not yet performed (R152), with the protection
attributes of its access (R161) and its burst (R160). -/
structure BufferedWrite where
  pa : Word
  size : Size
  data : Word
  prot : BitVec 4
  burst : Burst
  deriving DecidableEq, Repr

/-- One transfer as the core drives it on the bus (R158 to R164). -/
structure BusTransfer where
  /-- HADDR. -/
  pa : Word
  /-- HSIZE (R160). -/
  size : Size
  /-- HWDATA of a write (R94); none for a read. -/
  write : Option Word
  /-- HPROT[3:0] (R161); none for the word reads of a table walk, for which the spec gives none (R139). -/
  prot : Option (BitVec 4)
  /-- HLOCK (R164): one of the two phases of a swap. -/
  lock : Bool
  /-- HBURST: INCR8 for a beat of a line fill (R160), INCR for a word of a block or coprocessor transfer
  (R331), else SINGLE (which others are SINGLE is log 40). -/
  burst : Burst
  /-- HTRANS (R159). -/
  trans : TransType
  deriving DecidableEq, Repr

/-- HRESP (R162). -/
inductive Response where
  | okay | error
  /-- The master repeats the transfer. -/
  | retry
  /-- The master repeats it when it is next granted the bus. -/
  | split
  deriving DecidableEq, Repr

/-- What the platform does about one transfer of the core (R9, R162, R172). -/
structure BusAnswer where
  /-- The bytes other masters wrote since the transfer before it. -/
  writes : List (Word × Byte)
  /-- HRESP. -/
  response : Response
  /-- What a slave other than memory drives on HRDATA. -/
  data : Word
  deriving DecidableEq, Repr

/-- What the platform may have at an address beside memory that reads as it was written (R9, R104). -/
inductive SlaveKind where
  /-- It reads as memory and takes no writes. -/
  | rom
  /-- It takes no place in memory: reads give what it drives. -/
  | device
  /-- Nothing: every transfer draws ERROR. -/
  | absent
  deriving DecidableEq, Repr

/-- A slave at the physical addresses from one to another. -/
structure Slave where
  first : Word
  last : Word
  kind : SlaveKind
  deriving DecidableEq, Repr

/-- A cache line: a valid bit, the tag mva[31:7] and eight words (R140). -/
structure CacheLine where
  valid : Bool
  tag : BitVec 25
  words : Vector Word 8
  deriving DecidableEq, Repr

/-- The sizes of a TLB entry (R125). -/
inductive TlbSize where
  | mb1 | kb64 | kb16 | kb4 | kb1
  deriving DecidableEq, Repr

/-- A TLB entry (R138, R58): the CAM part, the protection part, the physical part. -/
structure TlbEntry where
  valid : Bool
  preserve : Bool
  size : TlbSize
  tag : Word
  domain : BitVec 4
  ap : BitVec 2
  cachable : Bool
  bufferable : Bool
  base : Word
  baseSize : TlbSize
  deriving DecidableEq, Repr

/-- The memory system: everything behind the core that an access reads or changes. -/
structure MemSys where
  /-- Physical memory (R90). -/
  mem : Memory
  /-- The write buffer, oldest first (R152). -/
  wbuf : List BufferedWrite
  /-- The cache: four segments of 64 lines (R140). -/
  cache : Vector (Vector CacheLine 64) 4
  /-- The victim pointers of the cache test operations (R55). -/
  cacheVictim : Vector (BitVec 6) 4
  /-- The cache lockdown base (R55). -/
  cacheBase : BitVec 6
  /-- Whether the last c9 write was "victim and lockdown base" (R55). -/
  cacheStep : Bool
  /-- C15.C (R57). -/
  c15c : Word
  /-- The TLB (R138). -/
  tlb : Vector TlbEntry 64
  /-- The TLB victim pointer (R56, R138). -/
  tlbVictim : BitVec 6
  /-- The TLB lockdown base (R56). -/
  tlbBase : BitVec 6
  /-- The preserve bit given to new entries (R56). -/
  tlbPreserve : Bool
  /-- The pipelined victim pointer of RAM2 (R58). -/
  ram2Pointer : BitVec 6
  /-- C15.M (R58). -/
  c15m : Word
  /-- The slaves that are not plain memory (R9, D22). -/
  slaves : List Slave
  /-- The platform's answers to the transfers to come, repeated ones among them, first answer first; OKAY,
  and no other master's write, when the list is empty (D17, D22). -/
  answers : List BusAnswer
  /-- The transfers driven on the bus, oldest first; one answered RETRY or SPLIT stands there again (R102,
  R158, R162). -/
  bus : List BusTransfer
  /-- The core has written since the last fetch that filled the Thumb prefetch buffer (R73, R170). -/
  thumbStale : Bool
  /-- The counter of the memory system's free values. -/
  draws : Nat
  deriving DecidableEq, Repr

/-- What an abort reports (R131, R137), and whether a watchpoint or breakpoint caused it (R552). -/
structure AbortInfo where
  code : BitVec 4
  domain : BitVec 4
  addr : Word
  dbg : Bool
  deriving DecidableEq, Repr

/-- The result of an access or a table walk: a value, an abort, or a stop. -/
inductive Got (α : Type) where
  | ok (a : α)
  | abort (i : AbortInfo)
  | stop (r : Refusal)
  deriving DecidableEq, Repr

/-! ## Coprocessors -/

/-- The registers of CP15 that the machine holds (R41 to R54). -/
structure Cp15 where
  /-- c1 as it is read, bits 31:14 and 12:10 held zero (R43). -/
  control : Word
  /-- The values c1 was read as, which a write may put back in bits 31:14 and 12:10 (R43, U8). -/
  controlReads : List Word
  /-- c2 bits [31:14] (R45). -/
  ttb : BitVec 18
  /-- c3 (R46). -/
  dacr : Word
  /-- c5 bits [7:0] (R47). -/
  fsr : BitVec 8
  /-- c6 (R48). -/
  far : Word
  /-- c13 opcode_2 = 0 bits [31:25] (R51). -/
  pid : BitVec 7
  /-- c13 opcode_2 = 1 (R52). -/
  procId : Word
  /-- c15 Test State bit 0 (R54). -/
  testOn : Bool
  deriving DecidableEq, Repr

/-- The registers of CP14 (R60 to R63). -/
structure Cp14 where
  dccWrite : Word
  dccRead : Word
  w : Bool
  r : Bool
  dbgAbt : Bool
  deriving DecidableEq, Repr

/-- How a coprocessor answers an instruction offered to it (R355). -/
inductive CoprocAnswer where
  | absent | busy | ready
  deriving DecidableEq, Repr

/-- One answer of the external coprocessors: the handshake, and the words supplied to MRC (the first) or
STC (all); an LDC takes as many words as there are here (R360, R361, R363). -/
structure CoprocReply where
  answer : CoprocAnswer
  first : Word
  more : List Word
  deriving DecidableEq, Repr

/-- What the core sends an external coprocessor (R359 to R362, R368). -/
inductive CoprocCall where
  | dataOp (cp op1 crd crn crm : BitVec 4) (op2 : BitVec 3)
  /-- A word of LDC; in the unindexed form with the option of bits [7:0] (R192). -/
  | loadWord (cp crd : BitVec 4) (n : Bool) (option : Option (BitVec 8)) (k : Nat) (v : Word)
  /-- A word of STC. -/
  | storeWord (cp crd : BitVec 4) (n : Bool) (option : Option (BitVec 8)) (k : Nat)
  | write (cp : BitVec 4) (op1 : BitVec 3) (crn crm : BitVec 4) (op2 : BitVec 3) (v : Word)
  | read (cp : BitVec 4) (op1 : BitVec 3) (crn crm : BitVec 4) (op2 : BitVec 3)
  deriving DecidableEq, Repr

/-! ## Debug -/

/-- A watchpoint unit (R67). -/
structure WatchUnit where
  addrValue : Word
  addrMask : Word
  dataValue : Word
  dataMask : Word
  ctlValue : BitVec 9
  ctlMask : BitVec 8
  deriving DecidableEq, Repr

/-- Why debug state was entered (R555, Table 9-7). -/
inductive DebugCause where
  | breakpoint | watchpoint | request
  deriving DecidableEq, Repr

/-- The EmbeddedICE-RT registers, the TAP's registers and debug state (R64 to R67, R75, R549). -/
structure Debug where
  /-- Debug Control Register (R65). -/
  ctl : BitVec 6
  /-- The bits of the Debug Status Register as written (R66). -/
  status : BitVec 13
  unit0 : WatchUnit
  unit1 : WatchUnit
  /-- CHAINOUT of unit 1 (R548). -/
  chainOut : Bool
  /-- Bit 1 of the control register as the latch has synchronised it, which opens in RUN-TEST/IDLE alone (R65,
  R550). -/
  requestLatch : Bool
  /-- TAP instruction register (R554). -/
  tapInstr : BitVec 4
  /-- Scan path select register (R554). -/
  scanPath : BitVec 4
  /-- The core is in debug state (R549). -/
  ack : Bool
  /-- Why it was entered. -/
  cause : Option DebugCause
  /-- A halt-mode watchpoint matched during the instruction (R547). -/
  pending : Bool
  /-- That instruction also took a Data Abort (R547). -/
  pendingAbort : Bool
  /-- The instruction scanned in runs at system speed (R549). -/
  sysSpeed : Bool
  /-- Bit 33 of the last word scanned in for the core was HIGH: the next one waits for RESTART (R549, R555). -/
  bit33 : Bool
  /-- The word that waits for RESTART (R549). -/
  held : Option Word
  /-- How many words scanned in next are discarded, because a branch flushed the pipeline (R549). -/
  discard : Nat
  /-- No access to scan chain 1 since debug entry: its bit 33 tells the cause (R555). -/
  firstCapture : Bool
  /-- The bypass register (R554). -/
  bypass : Bool
  /-- Data scanned in for loads at debug speed. -/
  scanIn : List Word
  /-- Data the core put on the bus at debug speed, oldest first. -/
  scanOut : List Word
  /-- What the last read through a scan chain, or the last capture, returned. -/
  scanResult : Word
  /-- Bit 33 of the last capture of scan chain 1, or the bit that left the bypass register. -/
  scanBit : Bool
  deriving DecidableEq, Repr

/-! ## The core -/

/-- A prefetched instruction (R73): the word or halfword, or the abort its fetch met, or the stop its
walk met; and whether it is breakpointed (R546). -/
structure Fetched where
  got : Got Word
  breakpoint : Bool
  deriving DecidableEq, Repr

/-- The input pins. `fiq` and `irq` are true when the synchronised nFIQ, nIRQ are LOW. -/
structure Pins where
  fiq : Bool
  irq : Bool
  vinithi : Bool
  dbgen : Bool
  dbgrq : Bool
  dbgbreak : Bool
  dbgext : BitVec 2
  deriving DecidableEq, Repr

/-- The platform's parameters (R9): every statement holds for each value of each. -/
structure Platform where
  /-- PlatformBigEndian (D6). -/
  bigEndian : Bool
  /-- ExtCoprocs (D10): bit n for coprocessor n; bits 14 and 15 have no effect (U32). -/
  extCoprocs : BitVec 16
  /-- FSR_ON_PABT (D27): true when a Prefetch Abort updates the FSR. -/
  fsrOnPabt : Bool
  /-- STM_CONTINUE_AFTER_ABORT (U26). -/
  stmContinue : Bool
  /-- The core revision, the last nibble of the ID register (R42, U36). -/
  revision : BitVec 4
  /-- The device identification code of the TAP's ID register (R3, R554). -/
  jtagId : Word
  deriving DecidableEq, Repr

/-- The states only Reset leaves (R33, R35). -/
inductive Stuck where
  | illegalMode
  | stateBitChanged
  deriving DecidableEq, Repr

/-- Which effects of the instruction that Reset abandons have happened (R570). -/
structure Abandoned where
  /-- The general registers, by their entries in `State.regs`. -/
  regs : BitVec 30
  /-- N, Z, C, V, from bit 3 down. -/
  flags : BitVec 4
  /-- SPSR_fiq, irq, svc, abt, und, from bit 0 up. -/
  spsrs : BitVec 5
  /-- c2, c3, c5, c6, c13 opcode_2 = 1 of CP15, from bit 0 up. -/
  cp15 : BitVec 5
  /-- The DCC write and read registers, W, R and DbgAbt of CP14, from bit 0 up. -/
  cp14 : BitVec 5
  /-- The registers of the cache and TLB test operations: the victims of segments 0 to 3, the cache's base,
  its auto-increment, C15.C, the TLB's victim, base and preserve bit, RAM2's pointer, C15.M, from bit 0
  up. -/
  tests : BitVec 12
  /-- The physical addresses whose byte the instruction has written. -/
  bytes : List Word
  /-- How many of its coprocessor calls were made. -/
  calls : Nat
  deriving DecidableEq, Repr

/-- What the outside does between two instructions. -/
inductive EnvEvent where
  /-- Nothing: the core runs one instruction. -/
  | tick
  /-- The synchronised levels of nFIQ and nIRQ, true for LOW (R520 to R522). -/
  | interruptLines (fiq irq : Bool)
  /-- HRESETn went LOW and HIGH again with VINITHI at this level; between two instructions, or in the middle
  of the next one, of which these effects have happened (R570). While it was LOW the core made this many
  instruction reads from this address on (R571). -/
  | reset (vinithi : Bool) (amid : Option Abandoned) (first : Word) (reads : Nat)
  /-- The bus is granted to the write buffer: its oldest write is performed (R152). -/
  | busGrant
  /-- Another master writes a byte of memory (R172). -/
  | masterWrite (pa : Word) (v : Byte)
  /-- The debug pins (R545, R550). -/
  | debugPins (dbgen dbgrq dbgbreak : Bool) (dbgext : BitVec 2)
  /-- DBGnTRST LOW (R554, R573). -/
  | trst
  /-- UPDATE-IR: a TAP instruction (R554). -/
  | tapInstruction (code : BitVec 4)
  /-- CAPTURE-IR (R554). -/
  | captureIr
  /-- CAPTURE-DR: the register the TAP instruction connects (R554, R555). -/
  | captureDr
  /-- A bit shifted through the bypass register (R554). -/
  | shiftBypass (tdi : Bool)
  /-- UPDATE-DR of SCAN_N: a scan chain is selected (R554). -/
  | scanPath (chain : BitVec 4)
  /-- UPDATE-DR of scan chain 2 (R64, R555). -/
  | scan2 (write : Bool) (addr : BitVec 5) (v : Word)
  /-- UPDATE-DR of scan chain 15 (R556). -/
  | scan15 (write : Bool) (code : BitVec 4) (v : Word)
  /-- Scan chain 1: an instruction for the core in debug state, with bit 33 (R549, R555). -/
  | debugInstr (w : Word) (bit33 : Bool)
  /-- Scan chain 1: data for a load at debug speed. -/
  | debugData (v : Word)
  /-- The TAP controller reaches RUN-TEST/IDLE: the latch of DBGRQ opens (R65, R550) and with RESTART in the
  instruction register a system-speed access is made, or debug state ends (R549, R554). -/
  | runTestIdle
  deriving DecidableEq, Repr

/-- The state of the machine. -/
structure State where
  /-- The 30 general registers other than r15: entries 0 to 14 are r0 to r14 of User mode, 15 to 21
  r8_fiq to r14_fiq, then r13 and r14 of irq, svc, abt, und (R20). -/
  regs : Vector Word 30
  /-- The address of the current instruction, `iaddr` (R26). -/
  pc : Word
  cpsr : Word
  spsrFiq : Word
  spsrIrq : Word
  spsrSvc : Word
  spsrAbt : Word
  spsrUnd : Word
  cp15 : Cp15
  cp14 : Cp14
  memsys : MemSys
  dbg : Debug
  /-- The prefetched instructions from `pc` on, oldest first (R73). -/
  pipe : List Fetched
  /-- The 32-bit Thumb prefetch buffer: the word of the last Thumb fetch on the bus, or what its fetch met
  (R73, R95). -/
  thumbBuffer : Got Word
  pins : Pins
  platform : Platform
  /-- What the attached coprocessors will answer, first answer first. -/
  coproc : List CoprocReply
  /-- What was sent to them, oldest first. -/
  calls : List CoprocCall
  /-- What the outside will do, first event first. -/
  schedule : List EnvEvent
  /-- The last instruction was a User-bank LDM or STM (R586). -/
  userBank : Bool
  /-- Execution ran past 0xFFFFFFFC (D13). -/
  offTop : Bool
  stuck : Option Stuck
  /-- The counter of the core's free values. -/
  draws : Nat
  deriving DecidableEq, Repr

/-! ## Reset -/

/-- The memory system after reset (R70 to R72, R80): nothing valid, nothing buffered, no memory listed. -/
def MemSys.reset : MemSys where
  mem := []
  wbuf := []
  cache := Vector.replicate 4 (Vector.replicate 64 ⟨false, 0, Vector.replicate 8 0⟩)
  cacheVictim := Vector.replicate 4 0
  cacheBase := 0
  cacheStep := false
  c15c := 0
  tlb := Vector.replicate 64 ⟨false, false, .mb1, 0, 0, 0, false, false, 0, .mb1⟩
  tlbVictim := 0
  tlbBase := 0
  tlbPreserve := false
  ram2Pointer := 0
  c15m := 0
  slaves := []
  answers := []
  bus := []
  thumbStale := false
  draws := 0

/-- CP15 after reset with VINITHI LOW (R80). -/
def Cp15.reset : Cp15 where
  control := 0x00000070
  controlReads := []
  ttb := 0
  dacr := 0
  fsr := 0
  far := 0
  pid := 0
  procId := 0
  testOn := false

/-- A watchpoint unit with nothing programmed (D18). -/
def WatchUnit.off : WatchUnit := ⟨0, 0, 0, 0, 0, 0⟩

/-- The debug logic after DBGnTRST (R75, R573), no debugger attached (D18). -/
def Debug.reset : Debug where
  ctl := 0
  status := 0
  unit0 := .off
  unit1 := .off
  chainOut := false
  requestLatch := false
  tapInstr := 0b1110
  scanPath := 0
  ack := false
  cause := none
  pending := false
  pendingAbort := false
  sysSpeed := false
  bit33 := false
  held := none
  discard := 0
  firstCapture := false
  bypass := false
  scanIn := []
  scanOut := []
  scanResult := 0
  scanBit := false

/-- The machine right after reset (R80, R570), with VINITHI LOW: Supervisor mode, ARM state, interrupts
disabled, execution at the reset vector. Values R80 leaves unspecified are zero. -/
def State.reset : State where
  regs := Vector.replicate 30 0
  pc := 0
  cpsr := 0x000000d3
  spsrFiq := 0
  spsrIrq := 0
  spsrSvc := 0
  spsrAbt := 0
  spsrUnd := 0
  cp15 := .reset
  cp14 := ⟨0, 0, false, false, false⟩
  memsys := .reset
  dbg := .reset
  pipe := []
  thumbBuffer := .ok 0
  pins := ⟨false, false, false, false, false, false, 0⟩
  platform := ⟨false, 0, false, false, Config.defaultRevision, Config.defaultJtagId⟩
  coproc := []
  calls := []
  schedule := []
  userBank := false
  offTop := false
  stuck := none
  draws := 0

end Sys2Proof.Machine
end

