-- ==== Sys2Proof/Machine/Memory.lean ====
section
/-! DEFINITION. Physical memory (R90, R91): bytes in one canonical form, words as the four lanes of the
data bus (R93). -/

namespace Sys2Proof.Machine

/-- What an unlisted address reads as. The spec gives no content at power-up (R104); DESIGN CHOICE,
unsafe (log 2). -/
def Memory.unlisted : Byte := 0

/-- The byte at a physical address. -/
def Memory.get : Memory → Nat → Byte
  | [], _ => Memory.unlisted
  | (k, v) :: rest, a => if a < k then Memory.unlisted else if a = k then v else Memory.get rest a

/-- One entry more in front, unless it says what an unlisted address says. -/
def Memory.cons (a : Nat) (v : Byte) (rest : Memory) : Memory :=
  if v = Memory.unlisted then rest else (a, v) :: rest

/-- Writes the byte at a physical address, keeping the canonical form. -/
def Memory.set : Memory → Nat → Byte → Memory
  | [], a, v => Memory.cons a v []
  | (k, b) :: rest, a, v =>
    if a < k then Memory.cons a v ((k, b) :: rest)
    else if a = k then Memory.cons a v rest
    else (k, b) :: Memory.set rest a v

/-- Every entry lies above a bound, below 2^32, rises strictly and says something. -/
def Memory.wfFrom : Nat → Memory → Bool
  | _, [] => true
  | lo, (k, v) :: rest =>
    decide (lo ≤ k) && decide (k < 2 ^ 32) && v != Memory.unlisted && Memory.wfFrom (k + 1) rest

/-- The canonical form. -/
def Memory.wf (m : Memory) : Bool := Memory.wfFrom 0 m

/-- The address of lane i (DATA[8i+7:8i]) of the word at an address: the platform's own byte order says
which byte of the word a lane is (R93, D6). -/
def laneAddr (big : Bool) (pa : Word) (i : Nat) : Nat :=
  4 * (pa.toNat / 4) + (if big then 3 - i else i)

/-- The word DATA[31:0] at an address, whose bits [1:0] the memory ignores (R93, R96). -/
def Memory.word (big : Bool) (m : Memory) (pa : Word) : Word :=
  m.get (laneAddr big pa 3) ++ m.get (laneAddr big pa 2) ++ m.get (laneAddr big pa 1) ++
    m.get (laneAddr big pa 0)

/-- Stores DATA[31:0] at an address, whose bits [1:0] the memory ignores (R93, R96). -/
def Memory.setWord (big : Bool) (m : Memory) (pa v : Word) : Memory :=
  (((m.set (laneAddr big pa 0) (v.extractLsb' 0 8)).set (laneAddr big pa 1) (v.extractLsb' 8 8)).set
    (laneAddr big pa 2) (v.extractLsb' 16 8)).set (laneAddr big pa 3) (v.extractLsb' 24 8)

/-- Stores bits [15:0] of a value at an address whose bit 0 the memory ignores: the slave takes the lanes
of its own byte order (R93, R94). -/
def Memory.setHalf (big : Bool) (m : Memory) (pa v : Word) : Memory :=
  let a := 2 * (pa.toNat / 2)
  (m.set (if big then a + 1 else a) (v.extractLsb' 0 8)).set (if big then a else a + 1)
    (v.extractLsb' 8 8)

/-- A write as the bus performs it: the datum in the low bits, replicated on the lanes (R94). -/
def Memory.store (big : Bool) (m : Memory) (n : Size) (pa v : Word) : Memory :=
  match n with
  | .byte => m.set pa.toNat (v.extractLsb' 0 8)
  | .half => m.setHalf big pa v
  | .word => m.setWord big pa v

/-- The part of a lane word a read of this width and address takes, zero-extended (R93, R94): B selects
the lanes. -/
def lanes (b : Bool) (n : Size) (a w : Word) : Word :=
  match n with
  | .byte =>
    let k := a.toNat % 4
    (w.extractLsb' (8 * (if b then 3 - k else k)) 8).zeroExtend 32
  | .half =>
    let k := a.toNat / 2 % 2
    (w.extractLsb' (16 * (if b then 1 - k else k)) 16).zeroExtend 32
  | .word => w

/-- A lane word with the datum of a narrower write put in the lanes B selects (R93, R143). -/
def putLanes (b : Bool) (n : Size) (a w v : Word) : Word :=
  match n with
  | .byte =>
    let k := a.toNat % 4
    let shift := 8 * (if b then 3 - k else k)
    (w &&& ~~~(0xff#32 <<< shift)) ||| ((v &&& 0xff#32) <<< shift)
  | .half =>
    let k := a.toNat / 2 % 2
    let shift := 16 * (if b then 1 - k else k)
    (w &&& ~~~(0xffff#32 <<< shift)) ||| ((v &&& 0xffff#32) <<< shift)
  | .word => v

end Sys2Proof.Machine
end

