-- ==== Sys2Proof/Machine/Bus.lean ====
section
/-! DEFINITION. The bus (R158 to R164): one transfer, the platform's answer to it, the slaves that are not
plain memory (R9, R104, D22). -/

namespace Sys2Proof.Machine

/-- The datum of a write as it stands on the data bus: replicated on the lanes (R94). -/
def replicated (n : Size) (v : Word) : Word :=
  match n with
  | .byte => v.extractLsb' 0 8 ++ v.extractLsb' 0 8 ++ v.extractLsb' 0 8 ++ v.extractLsb' 0 8
  | .half => v.extractLsb' 0 16 ++ v.extractLsb' 0 16
  | .word => v

/-- Bytes written by other masters, in order (R172). -/
def Memory.setBytes (m : Memory) : List (Word × Byte) → Memory
  | [] => m
  | (a, v) :: rest => Memory.setBytes (m.set a.toNat v) rest

/-- Whether a slave answers for an address. -/
def Slave.covers (x : Slave) (pa : Word) : Bool := x.first.ule pa && pa.ule x.last

/-- What stands at an address when it is not plain memory. -/
def MemSys.slaveAt (pa : Word) (ms : MemSys) : Option SlaveKind :=
  (ms.slaves.find? fun x => x.covers pa).map Slave.kind

/-- An ERROR answer (R162). -/
def BusAnswer.error (a : BusAnswer) : Bool := a.response == .error

/-- An answer that makes the master repeat the transfer (R162). -/
def BusAnswer.repeats (a : BusAnswer) : Bool := a.response == .retry || a.response == .split

/-- Whether a transfer is the next beat of the burst of the one before it: in the same direction, at that
one's address plus the size (R159). A burst is of words (R331, R142). -/
def BusTransfer.follows (t before : BusTransfer) : Bool :=
  t.burst == before.burst && t.write.isSome == before.write.isSome && t.pa == before.pa + 4

/-- A transfer as it is driven after those of a list: SEQ if it is a later beat and follows the last of them,
so that a beat driven again, or behind a table walk, is NONSEQ (R159; DEDUCED, log 40). -/
def BusTransfer.drivenAfter (bus : List BusTransfer) (t : BusTransfer) : BusTransfer :=
  if bus.getLast?.any t.follows then t else { t with trans := .nonseq }

/-- One transfer driven until an answer completes it (R162), with what other masters wrote before each time
it is driven (R172): but once a locked transfer has been driven none of them writes until the swap's two
phases are over (R101, R168). -/
def MemSys.drive (t : BusTransfer) : List BusAnswer → Bool → MemSys → BusAnswer × MemSys
  | [], _, ms =>
    (⟨[], .okay, Config.slaveWord ms.bus.length⟩, { ms with answers := [], bus := ms.bus ++ [t.drivenAfter ms.bus] })
  | a :: rest, begun, ms =>
    let ms := { ms with
      answers := rest
      bus := ms.bus ++ [t.drivenAfter ms.bus]
      mem := if t.lock && begun then ms.mem else ms.mem.setBytes a.writes }
    if a.repeats then MemSys.drive t rest true ms else (a, ms)

/-- The platform's answer to one transfer (R162): ERROR where nothing answers. -/
def MemSys.transfer (t : BusTransfer) (ms : MemSys) : BusAnswer × MemSys :=
  let (a, ms) := ms.drive t ms.answers t.write.isSome
  (if ms.slaveAt t.pa = some .absent then { a with response := .error } else a, ms)

/-- The lane word a slave drives for a read (R163). -/
def MemSys.driven (big : Bool) (pa : Word) (a : BusAnswer) (ms : MemSys) : Word :=
  if ms.slaveAt pa = some .device then a.data else ms.mem.word big pa

/-- A write taken by the slave: memory stores it, nothing else does. -/
def MemSys.taken (big : Bool) (n : Size) (pa v : Word) (ms : MemSys) : MemSys :=
  if (ms.slaveAt pa).isNone then { ms with mem := ms.mem.store big n pa v } else ms

end Sys2Proof.Machine
end

