-- ==== Sys2Proof/Machine/Mmu.lean ====
section
/-! DEFINITION. From virtual to physical address: FCSE (R110), the TLB (R138), the table walk (R114 to
R125, R139), the domain and permission checks (R128 to R130). -/

namespace Sys2Proof.Machine

/-! ## CP15 fields (R44) -/

def Cp15.mmuOn (cp : Cp15) : Bool := cp.control.getLsbD 0
def Cp15.alignOn (cp : Cp15) : Bool := cp.control.getLsbD 1
def Cp15.cacheBit (cp : Cp15) : Bool := cp.control.getLsbD 2
def Cp15.bufferBit (cp : Cp15) : Bool := cp.control.getLsbD 3
def Cp15.bigEndian (cp : Cp15) : Bool := cp.control.getLsbD 7
def Cp15.systemBit (cp : Cp15) : Bool := cp.control.getLsbD 8
def Cp15.romBit (cp : Cp15) : Bool := cp.control.getLsbD 9
def Cp15.highVectors (cp : Cp15) : Bool := cp.control.getLsbD 13

/-- The cache is on when C = 1 and M = 1 (R141). -/
def Cp15.cacheOn (cp : Cp15) : Bool := cp.cacheBit && cp.mmuOn

/-- The write buffer is on when W = 1; with M = 0 nothing is bufferable (R151). -/
def Cp15.bufferOn (cp : Cp15) : Bool := cp.bufferBit && cp.mmuOn

/-- The 2-bit field of a domain in the DACR (R46). -/
def Cp15.domainAccess (cp : Cp15) (domain : BitVec 4) : BitVec 2 :=
  cp.dacr.extractLsb' (2 * domain.toNat) 2

/-- FCSE relocation (R110). -/
def fcse (pid : BitVec 7) (va : Word) : Word :=
  if va.extractLsb' 25 7 = 0#7 then pid ++ va.extractLsb' 0 25 else va

/-! ## Sizes -/

/-- How many low bits of an address lie inside a mapping (R125). -/
def TlbSize.bits : TlbSize → Nat
  | .mb1 => 20
  | .kb64 => 16
  | .kb16 => 14
  | .kb4 => 12
  | .kb1 => 10

/-- The bits of an address inside a mapping. -/
def TlbSize.offset (n : TlbSize) (a : Word) : Word := a &&& (BitVec.ofNat 32 (2 ^ n.bits - 1))

/-- The bits of an address above a mapping. -/
def TlbSize.page (n : TlbSize) (a : Word) : Word := a &&& ~~~(BitVec.ofNat 32 (2 ^ n.bits - 1))

/-! ## Aborts and free bits -/

/-- The next free word of the memory system. -/
def MemSys.draw (ms : MemSys) : Word × MemSys :=
  (Config.busWord ms.draws, { ms with draws := ms.draws + 1 })

/-- An alignment fault: FS b0001 or b0011, the domain invalid (R131, R132). -/
def MemSys.alignmentFault (mva : Word) (ms : MemSys) : AbortInfo × MemSys :=
  let (f, ms) := ms.draw
  (⟨if f.getLsbD 0 then 0b0011 else 0b0001, f.extractLsb' 4 4, mva, false⟩, ms)

/-- A section translation fault: the domain invalid (R131, R133). -/
def MemSys.sectionTranslationFault (mva : Word) (ms : MemSys) : AbortInfo × MemSys :=
  let (f, ms) := ms.draw
  (⟨0b0101, f.extractLsb' 4 4, mva, false⟩, ms)

/-! ## The table walk -/

/-- What a walk finds (R130). -/
inductive Walk where
  | sectionFault
  | pageFault (domain : BitVec 4)
  | tinyInCoarse
  | entry (e : TlbEntry)
  deriving DecidableEq, Repr

/-- The TLB entry of a section (R117). -/
def sectionEntry (l1 mva : Word) : TlbEntry where
  valid := true
  preserve := false
  size := .mb1
  tag := TlbSize.mb1.page mva
  domain := l1.extractLsb' 5 4
  ap := l1.extractLsb' 10 2
  cachable := l1.getLsbD 3
  bufferable := l1.getLsbD 2
  base := TlbSize.mb1.page l1
  baseSize := .mb1

/-- Subpage k's access permissions in a large or small page descriptor (R120). -/
def subpageAp (l2 : Word) (k : Nat) : BitVec 2 := l2.extractLsb' (4 + 2 * k) 2

/-- Whether the four subpages have the same permissions (R125). -/
def sameSubpages (l2 : Word) : Bool :=
  subpageAp l2 0 == subpageAp l2 1 && subpageAp l2 0 == subpageAp l2 2 && subpageAp l2 0 == subpageAp l2 3

/-- The TLB entry of a large or small page, or of its subpage when the permissions differ (R121, R122,
R125). -/
def pageEntry (page sub : TlbSize) (domain : BitVec 4) (l2 mva : Word) : TlbEntry :=
  let n := if sameSubpages l2 then page else sub
  { valid := true
    preserve := false
    size := n
    tag := n.page mva
    domain := domain
    ap := subpageAp l2 (mva.toNat / 2 ^ sub.bits % 4)
    cachable := l2.getLsbD 3
    bufferable := l2.getLsbD 2
    base := n.page (page.page l2 ||| page.offset mva)
    baseSize := n }

/-- The TLB entry of a tiny page (R123). -/
def tinyEntry (domain : BitVec 4) (l2 mva : Word) : TlbEntry where
  valid := true
  preserve := false
  size := .kb1
  tag := TlbSize.kb1.page mva
  domain := domain
  ap := l2.extractLsb' 4 2
  cachable := l2.getLsbD 3
  bufferable := l2.getLsbD 2
  base := TlbSize.kb1.page l2
  baseSize := .kb1

/-- The level two descriptor (R120). -/
def levelTwo (fine : Bool) (domain : BitVec 4) (l2 mva : Word) : Walk :=
  match l2.extractLsb' 0 2 with
  | 0 => .pageFault domain
  | 1 => .entry (pageEntry .kb64 .kb16 domain l2 mva)
  | 2 => .entry (pageEntry .kb4 .kb1 domain l2 mva)
  | _ => if fine then .entry (tinyEntry domain l2 mva) else .tinyInCoarse

/-- The physical address of the level one descriptor (R115). -/
def l1Address (ttb : BitVec 18) (mva : Word) : Word := ttb ++ mva.extractLsb' 20 12 ++ 0#2

/-- The physical address of the level two descriptor in a coarse table (R118). -/
def coarseAddress (l1 mva : Word) : Word := l1.extractLsb' 10 22 ++ mva.extractLsb' 12 8 ++ 0#2

/-- The physical address of the level two descriptor in a fine table (R119). -/
def fineAddress (l1 mva : Word) : Word := l1.extractLsb' 12 20 ++ mva.extractLsb' 10 10 ++ 0#2

/-- A word read of a table walk: of physical memory itself, not of the cache or the write buffer; an ERROR
answer to it is outside the spec and ignored (R139, D30). -/
def MemSys.walkRead (big : Bool) (pa : Word) (ms : MemSys) : Word × MemSys :=
  let (a, ms) := ms.transfer ⟨pa, .word, none, none, false, .single, .nonseq⟩
  (ms.driven big pa a, ms)

/-- The table walk (R115 to R123). -/
def MemSys.walk (big : Bool) (ttb : BitVec 18) (mva : Word) (ms : MemSys) : Walk × MemSys :=
  let (l1, ms) := ms.walkRead big (l1Address ttb mva)
  match l1.extractLsb' 0 2 with
  | 0 => (.sectionFault, ms)
  | 1 =>
    let (l2, ms) := ms.walkRead big (coarseAddress l1 mva)
    (levelTwo false (l1.extractLsb' 5 4) l2 mva, ms)
  | 2 => (.entry (sectionEntry l1 mva), ms)
  | _ =>
    let (l2, ms) := ms.walkRead big (fineAddress l1 mva)
    (levelTwo true (l1.extractLsb' 5 4) l2 mva, ms)

/-! ## The TLB -/

/-- Whether an entry answers for an address (R138). -/
def TlbEntry.hits (e : TlbEntry) (mva : Word) : Bool := e.valid && e.size.page mva == e.tag

/-- The entry that answers for an address: of two that match, the lowest (DESIGN CHOICE, log 24). -/
def MemSys.tlbLookup (ms : MemSys) (mva : Word) : Option TlbEntry :=
  ms.tlb.toList.find? fun e => e.hits mva

/-- The victim pointer after one use: round robin above the lockdown base (R138). -/
def MemSys.nextTlbVictim (ms : MemSys) : BitVec 6 :=
  if ms.tlbVictim = 63 then ms.tlbBase else ms.tlbVictim + 1

/-- Writes an entry over the victim (R114, R138), with the preserve bit last written to c10 (DESIGN CHOICE,
log 24). -/
def MemSys.tlbFill (e : TlbEntry) (ms : MemSys) : MemSys :=
  { ms with
    tlb := ms.tlb.set ms.tlbVictim.toNat { e with preserve := ms.tlbPreserve } ms.tlbVictim.isLt
    tlbVictim := ms.nextTlbVictim }

/-- TLB lookup, walk on a miss, fill (R114): the entry for an address, or a translation fault. -/
def MemSys.translate (big : Bool) (cp : Cp15) (mva : Word) (ms : MemSys) : Got TlbEntry × MemSys :=
  match ms.tlbLookup mva with
  | some e => (.ok e, ms)
  | none =>
    match ms.walk big cp.ttb mva with
    | (.sectionFault, ms) => let (i, ms) := ms.sectionTranslationFault mva; (.abort i, ms)
    | (.pageFault domain, ms) => (.abort ⟨0b0111, domain, mva, false⟩, ms)
    | (.tinyInCoarse, ms) => (.stop .tinyPageInCoarse, ms)
    | (.entry e, ms) => (.ok e, ms.tlbFill e)

/-! ## Checks -/

/-- Whether an access writes. -/
def Access.writes : Access → Bool
  | .write | .swapWrite | .blockWrite | .nextWrite => true
  | .fetch | .read | .swapRead | .blockRead | .nextRead => false

/-- HBURST of an access that is no line fill and is not buffered (R160, R331; DESIGN CHOICE, log 40). -/
def Access.burst : Access → Burst
  | .blockRead | .blockWrite | .nextRead | .nextWrite => .incr
  | .fetch | .read | .write | .swapRead | .swapWrite => .single

/-- HTRANS of an access that is no line fill and is not buffered (R159, R331). -/
def Access.trans : Access → TransType
  | .nextRead | .nextWrite => .seq
  | .fetch | .read | .write | .swapRead | .swapWrite | .blockRead | .blockWrite => .nonseq

/-- The kind of the word after a word of this kind in a sequence of accesses (R331). -/
def Access.next : Access → Access
  | .blockRead => .nextRead
  | .blockWrite => .nextWrite
  | k => k

/-- The access permission table (R129). -/
def permits (sBit rBit : Bool) (ap : BitVec 2) (priv writes : Bool) : Bool :=
  if sBit && rBit then false
  else match ap with
    | 0 => !writes && (if priv then sBit || rBit else rBit)
    | 1 => priv
    | 2 => priv || !writes
    | _ => true

/-- A section or a page, for the fault codes (R131). -/
def TlbEntry.isSection (e : TlbEntry) : Bool := e.size == .mb1

/-- The domain check, then for a client the permission check (R128 to R130): the code of the fault. -/
def TlbEntry.check (cp : Cp15) (k : Access) (priv : Bool) (e : TlbEntry) : Option (BitVec 4) :=
  match cp.domainAccess e.domain with
  | 1 =>
    if permits cp.systemBit cp.romBit e.ap priv k.writes then none
    else some (if e.isSection then 0b1101 else 0b1111)
  | 3 => none
  | _ => some (if e.isSection then 0b1001 else 0b1011)

/-- Where an access goes: the physical address, the C and B attributes, the privilege, and the domain and
kind of mapping for an external abort's code. -/
structure Route where
  pa : Word
  cachable : Bool
  bufferable : Bool
  priv : Bool
  entry : Option TlbEntry
  deriving DecidableEq, Repr

/-- The physical address an entry gives (R117, R121 to R123). -/
def TlbEntry.physical (e : TlbEntry) (mva : Word) : Word := e.baseSize.page e.base ||| e.baseSize.offset mva

/-- Step 3 of R100: flat with the MMU off (R113), else translated and checked. -/
def MemSys.route (big : Bool) (cp : Cp15) (k : Access) (priv : Bool) (mva : Word) (ms : MemSys) :
    Got Route × MemSys :=
  if cp.mmuOn then
    match ms.translate big cp mva with
    | (.ok e, ms) =>
      match e.check cp k priv with
      | none => (.ok ⟨e.physical mva, e.cachable, e.bufferable, priv, some e⟩, ms)
      | some code => (.abort ⟨code, e.domain, mva, false⟩, ms)
    | (.abort i, ms) => (.abort i, ms)
    | (.stop r, ms) => (.stop r, ms)
  else (.ok ⟨mva, false, false, priv, none⟩, ms)

/-- HPROT[3:0] of an access (R161): cachable, bufferable, privileged, data. -/
def Route.prot (k : Access) (r : Route) : BitVec 4 :=
  flagBit r.cachable ++ flagBit r.bufferable ++ flagBit r.priv ++ flagBit (k != .fetch)

/-- Whether an access breaks the alignment of its width (R97): never a fetch, never a byte. -/
def misaligned (k : Access) (n : Size) (a : Word) : Bool :=
  k != .fetch && match n with
    | .byte => false
    | .half => a.getLsbD 0
    | .word => a.extractLsb' 0 2 != 0#2

end Sys2Proof.Machine
end

