-- ==== Sys2Proof/Machine/Access.lean ====
section
/-! DEFINITION. The access algorithm (R100): external aborts (R136), the write buffer (R150 to R157), the
cache (R140 to R146), a read and a write of the memory system. -/

namespace Sys2Proof.Machine

/-! ## External aborts -/

/-- The codes of an external abort (R131, R136): with the MMU off FS is b1000 or b1010 and the domain
unspecified (U25). -/
def MemSys.externalAbort (entry : Option TlbEntry) (mva : Word) (ms : MemSys) : AbortInfo × MemSys :=
  match entry with
  | some e => (⟨if e.isSection then 0b1000 else 0b1010, e.domain, mva, false⟩, ms)
  | none =>
    let (f, ms) := ms.draw
    (⟨if f.getLsbD 0 then 0b1010 else 0b1000, f.extractLsb' 4 4, mva, false⟩, ms)

/-! ## The write buffer -/

/-- The bus performs a buffered write; an ERROR response is ignored, and whether that write was then
performed is unspecified (R157). -/
def MemSys.perform (big : Bool) (e : BufferedWrite) (ms : MemSys) : MemSys :=
  let (a, ms) := ms.transfer ⟨e.pa, e.size, some (replicated e.size e.data), some e.prot, false, e.burst, .nonseq⟩
  if a.error then
    let (f, ms) := ms.draw
    if f.getLsbD 0 then ms.taken big e.size e.pa e.data else ms
  else ms.taken big e.size e.pa e.data

/-- The bus performs a list of buffered writes in order (R152, D8). -/
def MemSys.performAll (big : Bool) : List BufferedWrite → MemSys → MemSys
  | [], ms => ms
  | e :: rest, ms => MemSys.performAll big rest (ms.perform big e)

/-- Waits until the write buffer is empty (R153, R155). -/
def MemSys.drain (big : Bool) (ms : MemSys) : MemSys :=
  MemSys.performAll big ms.wbuf { ms with wbuf := [] }

/-- The bus performs the oldest buffered write, if there is one (R152). -/
def MemSys.drainOne (big : Bool) (ms : MemSys) : MemSys :=
  match ms.wbuf with
  | [] => ms
  | e :: rest => MemSys.perform big e { ms with wbuf := rest }

/-- Puts a write into the buffer; a full buffer first performs its oldest (R150, R152). -/
def MemSys.enqueue (big : Bool) (e : BufferedWrite) (ms : MemSys) : MemSys :=
  let ms := if ms.wbuf.length < 8 then ms else ms.drainOne big
  { ms with wbuf := ms.wbuf ++ [e] }

/-! ## The cache -/

/-- The segment an address belongs to (R140). -/
def segmentOf (mva : Word) : Fin 4 := (mva.extractLsb' 5 2).toFin

/-- The tag of an address (R140). -/
def tagOf (mva : Word) : BitVec 25 := mva.extractLsb' 7 25

/-- The word of a line an address names. -/
def wordOf (mva : Word) : Fin 8 := (mva.extractLsb' 2 3).toFin

/-- The index of the line that holds an address, if one does (R140): of two that do, the lowest (DESIGN CHOICE,
log 24). -/
def MemSys.cacheFind (ms : MemSys) (mva : Word) : Option (Fin 64) :=
  (List.finRange 64).find? fun i =>
    (ms.cache[segmentOf mva][i]).valid && (ms.cache[segmentOf mva][i]).tag == tagOf mva

/-- A line of the cache replaced. -/
def MemSys.setLine (seg : Fin 4) (i : Fin 64) (l : CacheLine) (ms : MemSys) : MemSys :=
  { ms with cache := ms.cache.set seg (ms.cache[seg].set i l) }

/-- Eight beats of a line fill: an ERROR is ignored and its word unspecified (R136, R142). -/
def MemSys.fillWords (big : Bool) (prot : BitVec 4) (base : Word) :
    List Nat → MemSys → List Word × MemSys
  | [], ms => ([], ms)
  | i :: rest, ms =>
    let pa := base + BitVec.ofNat 32 (4 * i)
    let (a, ms) := ms.transfer ⟨pa, .word, none, some prot, false, .incr8,
      if i = 0 then .nonseq else .seq⟩
    let (v, ms) := if a.error then ms.draw else (ms.driven big pa a, ms)
    let (vs, ms) := MemSys.fillWords big prot base rest ms
    (v :: vs, ms)

/-- The line a fill replaces: an oracle's choice (R144, D16) at or above the lockdown base (R55). -/
def MemSys.fillVictim (ms : MemSys) : Fin 64 :=
  let v := Config.cacheVictim ms.draws
  if v.ult ms.cacheBase then ms.cacheBase.toFin else v.toFin

/-- A line fill (R142): drain (D8), eight words from the line's base, the line placed at random. -/
def MemSys.lineFill (big : Bool) (prot : BitVec 4) (mva pa : Word) (ms : MemSys) : Word × MemSys :=
  let (vs, ms) := MemSys.fillWords big prot (pa &&& 0xffffffe0) (List.range 8) (ms.drain big)
  let words := Vector.ofFn fun i : Fin 8 => vs.getD i 0
  let i := ms.fillVictim
  (words[wordOf mva],
    MemSys.setLine (segmentOf mva) i ⟨true, tagOf mva, words⟩ { ms with draws := ms.draws + 1 })

/-- A write that hits updates the line's bytes (R143). -/
def MemSys.updateLine (b : Bool) (n : Size) (mva v : Word) (ms : MemSys) : MemSys :=
  match ms.cacheFind mva with
  | none => ms
  | some i =>
    let l := ms.cache[segmentOf mva][i]
    ms.setLine (segmentOf mva) i
      { l with words := l.words.set (wordOf mva) (putLanes b n mva l.words[wordOf mva] v) }

/-- Every line invalid (R146). -/
def MemSys.invalidateCache (ms : MemSys) : MemSys :=
  { ms with cache := ms.cache.map fun seg => seg.map fun l => { l with valid := false } }

/-- Every TLB entry invalid (R138). -/
def MemSys.invalidateTlb (ms : MemSys) : MemSys :=
  { ms with tlb := ms.tlb.map fun e => { e with valid := false } }

/-- Any TLB entry for this MVA invalid (R50, R138). -/
def MemSys.invalidateTlbEntry (mva : Word) (ms : MemSys) : MemSys :=
  { ms with tlb := ms.tlb.map fun e => if e.hits mva then { e with valid := false } else e }

/-! ## The access algorithm -/

/-- An external read (R100 step 4, R155): the buffer drains first; ERROR is an external abort (R136). -/
def MemSys.externalRead (big : Bool) (k : Access) (n : Size) (r : Route) (mva : Word) (ms : MemSys) :
    Got Word × MemSys :=
  let (a, ms) := (ms.drain big).transfer ⟨r.pa, n, none, some (r.prot k), k == .swapRead, k.burst, k.trans⟩
  if a.error then let (i, ms) := ms.externalAbort r.entry mva; (.abort i, ms)
  else (.ok (ms.driven big r.pa a), ms)

/-- An external, unbuffered write (R100 step 5, R153). -/
def MemSys.externalWrite (big : Bool) (k : Access) (n : Size) (r : Route) (mva v : Word) (ms : MemSys) :
    Got Unit × MemSys :=
  let (a, ms) := (ms.drain big).transfer
    ⟨r.pa, n, some (replicated n v), some (r.prot k), k == .swapWrite, k.burst, k.trans⟩
  if a.error then let (i, ms) := ms.externalAbort r.entry mva; (.abort i, ms)
  else (.ok (), ms.taken big n r.pa v)

/-- A read or fetch after translation (R100 step 4): the lane word. The read of a swap is external and
aborts on ERROR whether the region is cachable or not (R100, R145; where R136 names the noncachable only,
log 28). -/
def MemSys.readRoute (big : Bool) (cp : Cp15) (k : Access) (n : Size) (mva : Word) (r : Route)
    (ms : MemSys) : Got Word × MemSys :=
  if cp.cacheOn && r.cachable && k != .swapRead then
    match ms.cacheFind mva with
    | some i => (.ok (ms.cache[segmentOf mva][i]).words[wordOf mva], ms)
    | none => let (w, ms) := ms.lineFill big (r.prot k) mva r.pa; (.ok w, ms)
  else ms.externalRead big k n r mva

/-- A write after translation (R100 step 5). A buffered one reaches the bus nonsequentially, as a SINGLE
(R157; DESIGN CHOICE, log 40). The Thumb prefetch buffer no longer serves a fetch (R170). -/
def MemSys.writeRoute (big : Bool) (cp : Cp15) (k : Access) (n : Size) (mva v : Word) (r : Route)
    (ms : MemSys) : Got Unit × MemSys :=
  let ms := { (if cp.cacheOn then ms.updateLine cp.bigEndian n mva v else ms) with thumbStale := true }
  if cp.bufferOn && r.bufferable && k != .swapWrite then
    (.ok (), ms.enqueue big ⟨r.pa, n, v, r.prot k, .single⟩)
  else ms.externalWrite big k n r mva v

/-- The MVA of an access: FCSE (R110), and bits [1:0] of a word address ignored (R96, R97). A halfword access at
an odd address with A = 0, which the spec refuses, keeps bit 0 in HADDR and in what an abort of it reports (DESIGN
CHOICE, logs 16, 44). -/
def accessMva (cp : Cp15) (n : Size) (va : Word) : Word :=
  match n with
  | .word => fcse cp.pid va &&& 0xfffffffc
  | _ => fcse cp.pid va

/-- Steps 1 to 3 of R100: FCSE, the alignment check on the address as given, translation and checks. -/
def MemSys.resolve (big : Bool) (cp : Cp15) (k : Access) (n : Size) (priv : Bool) (va : Word)
    (ms : MemSys) : Got Route × MemSys :=
  if cp.alignOn && misaligned k n va then
    let (i, ms) := ms.alignmentFault (fcse cp.pid va)
    (.abort i, ms)
  else ms.route big cp k priv (accessMva cp n va)

/-- A read or fetch (R100): the lane word the address's bits [1:0] select from. -/
def MemSys.read (big : Bool) (cp : Cp15) (k : Access) (n : Size) (priv : Bool) (va : Word)
    (ms : MemSys) : Got Word × MemSys :=
  match ms.resolve big cp k n priv va with
  | (.ok r, ms) => ms.readRoute big cp k n (accessMva cp n va) r
  | (.abort i, ms) => (.abort i, ms)
  | (.stop e, ms) => (.stop e, ms)

/-- A write (R100). -/
def MemSys.write (big : Bool) (cp : Cp15) (k : Access) (n : Size) (priv : Bool) (va v : Word)
    (ms : MemSys) : Got Unit × MemSys :=
  match ms.resolve big cp k n priv va with
  | (.ok r, ms) => ms.writeRoute big cp k n (accessMva cp n va) v r
  | (.abort i, ms) => (.abort i, ms)
  | (.stop e, ms) => (.stop e, ms)

end Sys2Proof.Machine
end

