-- ==== Sys2Proof/Machine/Ops.lean ====
section
/-! DEFINITION. The named operations over the core's registers (R20 to R29, R30 to R38), taking an
exception (R501 to R504) and returning from one (R505), shared by every meaning. -/

namespace Sys2Proof.Machine

/-- What a step or a meaning answers. -/
abbrev Out := Host.Outcome State Fault Refusal

/-! ## Modes -/

/-- The seven operating modes (R39). -/
inductive Mode where
  | usr | fiq | irq | svc | abt | und | sys
  deriving DecidableEq, Repr

/-- The mode bits M[4:0] (R34). -/
def Mode.bits : Mode → BitVec 5
  | .usr => 0b10000
  | .fiq => 0b10001
  | .irq => 0b10010
  | .svc => 0b10011
  | .abt => 0b10111
  | .und => 0b11011
  | .sys => 0b11111

/-- The mode a value of M[4:0] names, if it is one of the seven (R34, R35). -/
def Mode.ofBits (b : BitVec 5) : Option Mode :=
  match b with
  | 0b10000 => some .usr
  | 0b10001 => some .fiq
  | 0b10010 => some .irq
  | 0b10011 => some .svc
  | 0b10111 => some .abt
  | 0b11011 => some .und
  | 0b11111 => some .sys
  | _ => none

/-- The mode bits of a status word. -/
def modeField (psr : Word) : BitVec 5 := psr.extractLsb' 0 5

/-- The current mode. With illegal mode bits, which only a stuck machine could hold, User. -/
def State.mode (s : State) : Mode := (Mode.ofBits (modeField s.cpsr)).getD .usr

/-- Every mode but User is privileged (R540). -/
def State.privileged (s : State) : Bool := s.mode != .usr

/-- The T bit (R33). -/
def State.thumb (s : State) : Bool := s.cpsr.getLsbD 5

/-- The length of an instruction in the current state (R209). -/
def State.len (s : State) : Word := if s.thumb then 2 else 4

/-! ## General registers -/

/-- Where a mode's r13 and r14 stand, from entries 13 and 14 (R20). -/
def Mode.bank : Mode → Nat
  | .usr => 0
  | .sys => 0
  | .fiq => 7
  | .irq => 9
  | .svc => 11
  | .abt => 13
  | .und => 15

/-- The physical register of a register number below 15 in a mode (R22), as an entry of `State.regs`. -/
def phys (m : Mode) (i : Reg) : Fin 30 :=
  if i.toNat < 8 then Fin.ofNat 30 i.toNat
  else if i.toNat < 13 then Fin.ofNat 30 (if m = .fiq then i.toNat + 7 else i.toNat)
  else Fin.ofNat 30 (i.toNat + m.bank)

/-- What a read of r15 gives: two instructions on (R27). -/
def State.pcRead (s : State) : Word := s.pc + s.len + s.len

/-- R[i] (R22, R27). -/
def State.reg (s : State) (i : Reg) : Word := if i = 15 then s.pcRead else s.regs[phys s.mode i]

/-- R_usr[i] (R22). -/
def State.userReg (s : State) (i : Reg) : Word := if i = 15 then s.pcRead else s.regs[phys .usr i]

/-- A register of a mode's bank written; r15 is written by a branch only. -/
def State.setBankReg (m : Mode) (i : Reg) (v : Word) (s : State) : State :=
  if i = 15 then s else { s with regs := s.regs.set (phys m i) v }

/-- R[i] written (R22). -/
def State.setReg (i : Reg) (v : Word) (s : State) : State := s.setBankReg s.mode i v

/-! ## The program counter -/

/-- The address a write of r15 goes to: bits [1:0], or bit 0, are zero (R26, R28, D20). -/
def alignPc (thumb : Bool) (v : Word) : Word := if thumb then v &&& 0xfffffffe else v &&& 0xfffffffc

/-- pc ← v: a branch, which discards the prefetched instructions (R28, R293). -/
def State.branchTo (v : Word) (s : State) : State :=
  { s with pc := alignPc s.thumb v, pipe := [], offTop := false }

/-- On to the next instruction (R29); past 0xFFFFFFFC there is none (D13). -/
def State.advance (s : State) : State :=
  { s with
    pc := s.pc + s.len
    pipe := s.pipe.tail
    offTop := decide (2 ^ 32 ≤ s.pc.toNat + s.len.toNat) }

/-- The end of an instruction with a destination: a write of r15 is a branch (R28), any other register is
written and execution goes on (R29). -/
def State.finish (rd : Reg) (v : Word) (s : State) : State :=
  if rd = 15 then s.branchTo v else (s.setReg rd v).advance

/-! ## Free values -/

/-- The core's next free word. -/
def State.draw (s : State) : Word × State :=
  (Config.freeWord s.draws, { s with draws := s.draws + 1 })

/-! ## Status registers -/

def State.flagN (s : State) : Bool := s.cpsr.getLsbD 31
def State.flagZ (s : State) : Bool := s.cpsr.getLsbD 30
def State.flagC (s : State) : Bool := s.cpsr.getLsbD 29
def State.flagV (s : State) : Bool := s.cpsr.getLsbD 28

/-- A status word with its four flags replaced (R30, R31). -/
def withFlags (psr : Word) (n z c v : Bool) : Word :=
  flagBit n ++ flagBit z ++ flagBit c ++ flagBit v ++ psr.extractLsb' 0 28

/-- CPSR.N, Z, C, V written; nothing else of the CPSR changes. -/
def State.setFlags (n z c v : Bool) (s : State) : State := { s with cpsr := withFlags s.cpsr n z c v }

/-- The condition field's predicate (R182, R183). -/
def State.passes (s : State) : Cond → Bool
  | .eq => s.flagZ
  | .ne => !s.flagZ
  | .cs => s.flagC
  | .cc => !s.flagC
  | .mi => s.flagN
  | .pl => !s.flagN
  | .vs => s.flagV
  | .vc => !s.flagV
  | .hi => s.flagC && !s.flagZ
  | .ls => !s.flagC || s.flagZ
  | .ge => s.flagN == s.flagV
  | .lt => s.flagN != s.flagV
  | .gt => !s.flagZ && s.flagN == s.flagV
  | .le => s.flagZ || s.flagN != s.flagV
  | .al => true

/-- The SPSR of a mode; User and System have none (R37). -/
def State.spsrOf (s : State) : Mode → Option Word
  | .usr => none
  | .sys => none
  | .fiq => some s.spsrFiq
  | .irq => some s.spsrIrq
  | .svc => some s.spsrSvc
  | .abt => some s.spsrAbt
  | .und => some s.spsrUnd

/-- The SPSR of the current mode. -/
def State.spsr (s : State) : Option Word := s.spsrOf s.mode

/-- The SPSR of a mode written. -/
def State.setSpsrOf (m : Mode) (v : Word) (s : State) : State :=
  match m with
  | .usr => s
  | .sys => s
  | .fiq => { s with spsrFiq := v }
  | .irq => { s with spsrIrq := v }
  | .svc => { s with spsrSvc := v }
  | .abt => { s with spsrAbt := v }
  | .und => { s with spsrUnd := v }

/-- Whether M[4:0] of a status word is one of the seven modes (R35). -/
def legalMode (psr : Word) : Bool := (Mode.ofBits (modeField psr)).isSome

/-- A status word as MRS reads it: bits [27:8] hold any value (R36, U4). -/
def readPsr (free psr : Word) : Word :=
  psr.extractLsb' 28 4 ++ free.extractLsb' 8 20 ++ psr.extractLsb' 0 8

/-! ## Taking an exception -/

/-- The exceptions an instruction or an interrupt input raises (R500); Reset is the environment's. -/
inductive Exc where
  | undefined | softwareInterrupt | prefetchAbort | dataAbort | irq | fiq
  deriving DecidableEq, Repr

/-- The mode an exception enters (R501). -/
def Exc.mode : Exc → Mode
  | .undefined => .und
  | .softwareInterrupt => .svc
  | .prefetchAbort => .abt
  | .dataAbort => .abt
  | .irq => .irq
  | .fiq => .fiq

/-- An exception's place in the vector table (R502). -/
def Exc.offset : Exc → Word
  | .undefined => 0x04
  | .softwareInterrupt => 0x08
  | .prefetchAbort => 0x0c
  | .dataAbort => 0x10
  | .irq => 0x18
  | .fiq => 0x1c

/-- The vector base: the V bit (R501, R502). -/
def Cp15.vectorBase (cp : Cp15) : Word := if cp.highVectors then 0xffff0000 else 0

/-- The CPSR an exception forms: mode, T = 0, I = 1, F = 1 for FIQ; flags and reserved bits unchanged
(R503, D3). -/
def exceptionCpsr (e : Exc) (psr : Word) : Word :=
  psr.extractLsb' 8 24 ++ 1#1 ++ flagBit (e == .fiq || psr.getLsbD 6) ++ 0#1 ++ e.mode.bits

/-- ExceptionEntry (R503): r14 of the new mode, its SPSR, the CPSR, the vector; the prefetched
instructions are discarded. The hazard after a User-bank transfer ends (DESIGN CHOICE, log 35). -/
def State.enter (e : Exc) (ret : Word) (s : State) : State :=
  let s := (s.setBankReg e.mode 14 ret).setSpsrOf e.mode s.cpsr
  { s with
    cpsr := exceptionCpsr e s.cpsr
    pc := s.cp15.vectorBase + e.offset
    pipe := []
    userBank := false
    offTop := false }

/-- Undefined Instruction: r14_und is the next instruction's address (R501, R510). -/
def State.takeUndefined (s : State) : State := s.enter .undefined (s.pc + s.len)

/-- SWI: r14_svc is the next instruction's address (R501, R511). -/
def State.takeSwi (s : State) : State := s.enter .softwareInterrupt (s.pc + s.len)

/-- IRQ before the instruction at pc: r14_irq is its address + 4 (R501, R521). -/
def State.takeIrq (s : State) : State := s.enter .irq (s.pc + 4)

/-- FIQ before the instruction at pc: r14_fiq is its address + 4 (R501, R520). -/
def State.takeFiq (s : State) : State := s.enter .fiq (s.pc + 4)

/-- FSR and FAR after a data abort (R137). -/
def State.recordAbort (i : AbortInfo) (s : State) : State :=
  { s with cp15 := { s.cp15 with fsr := i.domain ++ i.code, far := i.addr } }

/-- FSR and FAR after a watchpoint's Data Abort hold any value, and DbgAbt is set (R552, U38). -/
def State.recordDebugAbort (s : State) : State :=
  let (f, s) := s.draw
  let (a, s) := s.draw
  { s with
    cp15 := { s.cp15 with fsr := f.extractLsb' 0 8, far := a }
    cp14 := { s.cp14 with dbgAbt := true } }

/-- A watchpoint remembered from the same instruction is one "with exception" (R547, R557). -/
def State.rememberAbort (s : State) : State :=
  if s.dbg.pending then { s with dbg := { s.dbg with pendingAbort := true } } else s

/-- Data Abort of the instruction at pc: FSR, FAR, r14_abt = iaddr + 8 (R501, R513). -/
def State.takeDataAbort (i : AbortInfo) (s : State) : State :=
  ((if i.dbg then s.recordDebugAbort else s.recordAbort i).rememberAbort).enter .dataAbort (s.pc + 8)

/-- Prefetch Abort of the instruction at pc: r14_abt = iaddr + 4 (R512); FAR unchanged, FSR as
FSR_ON_PABT says (R137, D27); DbgAbt set by a breakpoint (R552). -/
def State.takePrefetchAbort (i : AbortInfo) (s : State) : State :=
  State.enter .prefetchAbort (s.pc + 4)
    (if i.dbg then { s with cp14 := { s.cp14 with dbgAbt := true } }
    else if s.platform.fsrOnPabt then { s with cp15 := { s.cp15 with fsr := i.domain ++ i.code } }
    else s)

/-! ## Returning from an exception -/

/-- CPSR ← SPSR and pc ← v together (R243, R334, R505): the address is aligned for the restored state.
There is no SPSR in User and System mode (R37, U5); an illegal saved mode makes the machine stuck (R35). -/
def State.returnTo (v : Word) (s : State) : Out :=
  match s.spsr with
  | none => .refused .noSpsr
  | some psr =>
    if legalMode psr then .next (({ s with cpsr := psr }).branchTo v)
    else .next { s with stuck := some .illegalMode }

/-! ## The shape of a meaning -/

/-- An ARM instruction: nothing but the advance when its condition fails (R183); a restriction of R197
refuses it (U15); else its own effect. -/
def State.conditional (c : Cond) (broken : Option Restriction) (effect : State → Out) (s : State) : Out :=
  if s.passes c then
    match broken with
    | some r => .refused (.unpredictable r)
    | none => effect s
  else .next s.advance

/-- A Thumb instruction, unconditional (R390). -/
def State.unconditional (broken : Option Restriction) (effect : State → Out) (s : State) : Out :=
  match broken with
  | some r => .refused (.unpredictable r)
  | none => effect s

end Sys2Proof.Machine
end

