-- ==== Sys2Proof/Machine/Flags.lean ====
section
/-! DEFINITION. The flag computations (R241, R276) and the shifter (R186). -/

namespace Sys2Proof.Machine

/-- A result and the flags N, Z, C, V that go with it. -/
structure Alu where
  value : Word
  n : Bool
  z : Bool
  c : Bool
  v : Bool
  deriving DecidableEq, Repr

/-- AddWithCarry (R241): the sum of naturals, narrowed. -/
def addWithCarry (x y : Word) (c : Bool) : Alu :=
  let u := x.toNat + y.toNat + c.toNat
  let r := BitVec.ofNat 32 u
  { value := r
    n := r.msb
    z := r == 0
    c := decide (2 ^ 32 ≤ u)
    v := x.msb == y.msb && r.msb != x.msb }

/-- The logical group (R241): C is the shifter's carry, V is kept. -/
def logical (r : Word) (carry v : Bool) : Alu := ⟨r, r.msb, r == 0, carry, v⟩

/-- The flags of a result written, the result dropped. -/
def State.setAluFlags (a : Alu) (s : State) : State := s.setFlags a.n a.z a.c a.v

/-- A shifted value and the shifter's carry-out. -/
structure Shifted where
  value : Word
  carry : Bool
  deriving DecidableEq, Repr

/-- LSL (R186). -/
def lsl (x : Word) (n : Nat) (c : Bool) : Shifted :=
  if n = 0 then ⟨x, c⟩
  else if n ≤ 32 then ⟨x <<< n, x.getLsbD (32 - n)⟩
  else ⟨0, false⟩

/-- LSR (R186). -/
def lsr (x : Word) (n : Nat) (c : Bool) : Shifted :=
  if n = 0 then ⟨x, c⟩
  else if n ≤ 32 then ⟨x >>> n, x.getLsbD (n - 1)⟩
  else ⟨0, false⟩

/-- ASR (R186). -/
def asr (x : Word) (n : Nat) (c : Bool) : Shifted :=
  if n = 0 then ⟨x, c⟩
  else if n < 32 then ⟨x.sshiftRight n, x.getLsbD (n - 1)⟩
  else ⟨if x.msb then 0xffffffff else 0, x.msb⟩

/-- ROR (R186). -/
def ror (x : Word) (n : Nat) (c : Bool) : Shifted :=
  if n = 0 then ⟨x, c⟩
  else if n % 32 = 0 then ⟨x, x.msb⟩
  else ⟨x.rotateRight (n % 32), x.getLsbD (n % 32 - 1)⟩

/-- RRX (R186). -/
def rrx (x : Word) (c : Bool) : Shifted := ⟨flagBit c ++ x.extractLsb' 1 31, x.getLsbD 0⟩

/-- A shift by an amount from 0 up (R188). -/
def shift (sh : ShiftType) (x : Word) (n : Nat) (c : Bool) : Shifted :=
  match sh with
  | .lsl => lsl x n c
  | .lsr => lsr x n c
  | .asr => asr x n c
  | .ror => ror x n c

/-- A shift by a 5-bit immediate: 0 means 32 for LSR and ASR, RRX for ROR (R187, R200). -/
def shiftImmediate (sh : ShiftType) (x : Word) (amount : BitVec 5) (c : Bool) : Shifted :=
  match sh with
  | .lsl => lsl x amount.toNat c
  | .lsr => lsr x (if amount = 0 then 32 else amount.toNat) c
  | .asr => asr x (if amount = 0 then 32 else amount.toNat) c
  | .ror => if amount = 0 then rrx x c else ror x amount.toNat c

end Sys2Proof.Machine
end

