-- ==== Sys2Proof/Machine/Operands.lean ====
section
/-! DEFINITION. The operand forms: operand 2 (R185 to R188), the addressing modes (R189 to R192), the
extensions and rotations of loaded data (R97, R99). -/

namespace Sys2Proof.Machine

/-- An 8-bit constant rotated right by twice the rotate field (R185). -/
def rotatedImmediate (rotate : BitVec 4) (imm8 : BitVec 8) : Word :=
  (imm8.zeroExtend 32).rotateRight (2 * rotate.toNat)

/-- Operand 2 and the shifter's carry-out (R185, R187, R188). -/
def State.operand2 (s : State) : Operand2 → Shifted
  | .imm rotate imm8 =>
    let v := rotatedImmediate rotate imm8
    ⟨v, if rotate = 0 then s.flagC else v.msb⟩
  | .shiftImm sh amount rm => shiftImmediate sh (s.reg rm) amount s.flagC
  | .shiftReg sh rs rm => shift sh (s.reg rm) ((s.reg rs).toNat % 256) s.flagC

/-- The offset of addressing mode 2, its carry-out discarded (R189). -/
def State.offset2 (s : State) : Offset2 → Word
  | .imm imm12 => imm12.zeroExtend 32
  | .reg sh amount rm => (shiftImmediate sh (s.reg rm) amount s.flagC).value

/-- The offset of addressing mode 3 (R190). -/
def State.offset3 (s : State) : Offset3 → Word
  | .imm imm8 => imm8.zeroExtend 32
  | .reg rm => s.reg rm

/-- Base plus or minus offset (R189, U). -/
def indexed (up : Bool) (base off : Word) : Word := if up then base + off else base - off

/-- The address of a transfer (R189, P). -/
def transferAddress (index : Index) (up : Bool) (base off : Word) : Word :=
  match index with
  | .post => base
  | _ => indexed up base off

/-- What a store of a register stores: r15 reads iaddr + 12 (R27, R319, R335). -/
def State.storeReg (s : State) (i : Reg) : Word := if i = 15 then s.pcRead + 4 else s.reg i

/-- The bytes of a word at an address, rotated for its bits [1:0] (R97, R301). -/
def rotateLoaded (a w : Word) : Word := w.rotateRight (8 * (a.toNat % 4))

/-- Sign extension of a loaded byte (R99). -/
def signExtendByte (w : Word) : Word := (w.extractLsb' 0 8).signExtend 32

/-- Sign extension of a loaded halfword (R99). -/
def signExtendHalf (w : Word) : Word := (w.extractLsb' 0 16).signExtend 32

/-- The bytes a list of registers takes: 4n (R191). -/
def listBytes (list : List Reg) : Word := BitVec.ofNat 32 (4 * list.length)

/-- The four modes of block transfers (R191). -/
inductive BlockMode where
  | ia | ib | da | db
  deriving DecidableEq, Repr

/-- The lowest address of a block transfer of n registers (R191, R330). -/
def BlockMode.start (m : BlockMode) (base bytes : Word) : Word :=
  match m with
  | .ia => base
  | .ib => base + 4
  | .da => base - bytes + 4
  | .db => base - bytes

/-- The base after a block transfer (R191, R330). -/
def BlockMode.newBase (m : BlockMode) (base bytes : Word) : Word :=
  match m with
  | .ia => base + bytes
  | .ib => base + bytes
  | .da => base - bytes
  | .db => base - bytes

end Sys2Proof.Machine
end

