-- ==== Sys2Proof/Machine/Transfer.lean ====
section
/-! DEFINITION. The core's accesses: the access algorithm (R100) seen from the core, the watchpoint units
that compare each of them (R548), loads and stores at debug speed (R549), and the fetch (R95, R73). -/

namespace Sys2Proof.Machine

/-! ## Watchpoint units -/

/-- A bus cycle as the units see it (R548): the address before FCSE relocation, the data bus and which of
its bits to disregard, the control bits. -/
structure BusCycle where
  addr : Word
  data : Word
  ignore : Word
  writes : Bool
  size : Size
  dataAccess : Bool
  priv : Bool
  deriving DecidableEq, Repr

/-- SIZE[1:0] (R67). -/
def Size.code : Size → BitVec 2
  | .byte => 0
  | .half => 1
  | .word => 2

/-- C[4:0] of a cycle (R548): PROT[1], PROT[0], SIZE, WRITE. -/
def BusCycle.control (y : BusCycle) : BitVec 5 :=
  flagBit y.priv ++ flagBit y.dataAccess ++ y.size.code ++ flagBit y.writes

/-- The XNOR mask comparison of every bit (R67, R548). -/
def bitsMatch {w : Nat} (value mask x : BitVec w) : Bool := (value ^^^ x) &&& ~~~mask == 0

/-- addr_ctl_match (R548). -/
def WatchUnit.addressMatch (u : WatchUnit) (y : BusCycle) : Bool :=
  bitsMatch u.addrValue u.addrMask y.addr &&
    bitsMatch (u.ctlValue.extractLsb' 0 5) (u.ctlMask.extractLsb' 0 5) y.control

/-- data_ext_match (R548): the data, RANGE, CHAIN and DBGEXT. -/
def WatchUnit.dataMatch (u : WatchUnit) (y : BusCycle) (range chain ext : Bool) : Bool :=
  bitsMatch u.dataValue (u.dataMask ||| y.ignore) y.data &&
    bitsMatch (u.ctlValue.extractLsb' 5 3) (u.ctlMask.extractLsb' 5 3)
      (flagBit range ++ flagBit chain ++ flagBit ext)

/-- ENABLE (R67). -/
def WatchUnit.enabled (u : WatchUnit) : Bool := u.ctlValue.getLsbD 8

/-- Both units on one cycle (R548): whether one triggers, and the CHAINOUT latch. RANGE and CHAIN of
unit 1 are the inputs the spec does not describe (U46). -/
def Debug.compare (d : Debug) (ext : BitVec 2) (inputs : Bool × Bool) (y : BusCycle) : Bool × Debug :=
  let address1 := d.unit1.addressMatch y
  let data1 := d.unit1.dataMatch y inputs.1 inputs.2 (ext.getLsbD 1)
  let range := address1 && data1
  let chain := if address1 then data1 else d.chainOut
  let match0 := d.unit0.addressMatch y && d.unit0.dataMatch y range chain (ext.getLsbD 0)
  (((match0 && d.unit0.enabled) || (range && d.unit1.enabled)) && !d.ctl.getLsbD 5,
    { d with chainOut := chain })

/-- Monitor mode (R65, R552). -/
def Debug.monitor (d : Debug) : Bool := d.ctl.getLsbD 4

/-- Whether a cycle of the core is marked, by a unit or, in halt mode, by DBGBREAK (R546, R547); in debug
state none is, but CHAINOUT follows the cycle (R548). With DBGEN LOW the logic rests (R545). -/
def State.compare (y : BusCycle) (s : State) : Bool × State :=
  if s.pins.dbgen then
    let (hit, d) := s.dbg.compare s.pins.dbgext (Config.unit1Inputs s.draws) y
    ((hit || (s.pins.dbgbreak && !s.dbg.monitor)) && !s.dbg.ack, { s with dbg := d })
  else (false, s)

/-- A data cycle compared (R547, R552): in halt mode a match is remembered until the instruction completes;
in monitor mode it aborts the access. -/
def State.watch (y : BusCycle) (s : State) : Bool × State :=
  let (hit, s) := s.compare y
  if hit && !s.dbg.monitor then (false, { s with dbg := { s.dbg with pending := true } })
  else (hit, s)

/-- What a monitor-mode watchpoint or breakpoint reports; its code and address are not used (R552). -/
def debugAbort : AbortInfo := ⟨0, 0, 0, true⟩

/-! ## Loads and stores -/

/-- Instructions scanned in at debug speed make no memory access (R549). -/
def State.debugSpeed (s : State) : Bool := s.dbg.ack && !s.dbg.sysSpeed

/-- A load at debug speed takes the data scanned in (R549): the oldest of what was scanned in before the load's
own word and no load has taken; with none the bus holds any value (DESIGN CHOICE, log 31). -/
def State.scanLoad (s : State) : Word × State :=
  match s.dbg.scanIn with
  | v :: rest => (v, { s with dbg := { s.dbg with scanIn := rest } })
  | [] => s.draw

/-- A data read of the core (R100, R547): the datum, zero-extended. The watchpoint units compare the address
as it is given, bits the access ignores included (DESIGN CHOICE, log 38). -/
def State.load (k : Access) (n : Size) (priv : Bool) (va : Word) (s : State) : Got Word × State :=
  if s.debugSpeed then
    let (w, s) := s.scanLoad
    (.ok (lanes s.cp15.bigEndian n va w), s)
  else
    let (got, ms) := s.memsys.read s.platform.bigEndian s.cp15 k n priv va
    let s := { s with memsys := ms }
    match got with
    | .ok w =>
      let (hit, s) := s.watch ⟨va, w, 0, false, n, true, priv⟩
      if hit then (.abort debugAbort, s) else (.ok (lanes s.cp15.bigEndian n va w), s)
    | .abort i =>
      let (_, s) := s.watch ⟨va, Config.busWord ms.draws, 0, false, n, true, priv⟩
      (.abort i, s)
    | .stop r => (.stop r, s)

/-- A data write of the core (R100, R547), compared as a read is. A write a monitor-mode watchpoint aborts
does not happen (R513, R552). -/
def State.store (k : Access) (n : Size) (priv : Bool) (va v : Word) (s : State) : Got Unit × State :=
  if s.debugSpeed then
    (.ok (), { s with dbg := { s.dbg with scanOut := s.dbg.scanOut ++ [replicated n v] } })
  else
    let (got, ms) := s.memsys.write s.platform.bigEndian s.cp15 k n priv va v
    let (hit, s) := s.watch ⟨va, replicated n v, 0, true, n, true, priv⟩
    match got with
    | .ok () => if hit then (.abort debugAbort, s) else (.ok (), { s with memsys := ms })
    | .abort i => (.abort i, { s with memsys := ms })
    | .stop r => (.stop r, { s with memsys := ms })

/-! ## Fetch -/

/-- The width of an instruction (R209). -/
def State.fetchSize (s : State) : Size := if s.thumb then .half else .word

/-- The lanes of a word that a Thumb fetch does not use (R548). -/
def unusedHalf (b : Bool) (va : Word) : Word :=
  if (va.getLsbD 1 != b) then 0x0000ffff else 0xffff0000

/-- Whether a fetch is served by the Thumb prefetch buffer: the second half of a word whose first half is
the fetch before it (R73, R95), with no store of the core between them, whose value a later fetch gets (R170;
any store empties the buffer: DESIGN CHOICE, log 12). -/
def State.inThumbBuffer (va : Word) (s : State) : Bool :=
  s.thumb && va.getLsbD 1 && !s.pipe.isEmpty && !s.memsys.thumbStale

/-- The lane word of a fetch (R95): a 32-bit transaction in both states, which in Thumb state fills the
prefetch buffer; its second half makes no other. -/
def State.fetchWord (va : Word) (s : State) : Got Word × State :=
  if s.inThumbBuffer va then (s.thumbBuffer, s)
  else
    let (got, ms) := s.memsys.read s.platform.bigEndian s.cp15 .fetch .word s.privileged va
    if s.thumb then (got, { s with memsys := { ms with thumbStale := false }, thumbBuffer := got })
    else (got, { s with memsys := ms })

/-- The fetch of one instruction (R95, R100): under the translation, privilege and byte order of the
moment (R73), marked when it aborts (R512) or matches a breakpoint (R546), which an abort disregards; then
the data bus has any value. Each Thumb instruction is compared as a halfword cycle at its own address, one the
prefetch buffer serves too (DESIGN CHOICE, log 38). -/
def State.fetch (va : Word) (s : State) : Fetched × State :=
  let n := s.fetchSize
  let (got, s) := s.fetchWord va
  let cycle := fun w =>
    ⟨va, w, if s.thumb then unusedHalf s.cp15.bigEndian va else 0, false, n, false, s.privileged⟩
  match got with
  | .ok w =>
    let (hit, s) := s.compare (cycle w)
    (⟨.ok (lanes s.cp15.bigEndian n va w), hit⟩, s)
  | .abort i =>
    let (_, s) := s.compare (cycle (Config.busWord s.memsys.draws))
    (⟨.abort i, false⟩, s)
  | .stop r => (⟨.stop r, false⟩, s)

/-- Fetches until the pipeline holds a number of instructions from pc on. -/
def State.fillPipe : Nat → State → State
  | 0, s => s
  | n + 1, s =>
    let (f, s) := s.fetch (s.pc + s.len * BitVec.ofNat 32 s.pipe.length)
    State.fillPipe n { s with pipe := s.pipe ++ [f] }

/-- The pipeline as it stands when the instruction at pc executes: it and the two after it (R73, R580). -/
def State.prefetch (s : State) : State := State.fillPipe (3 - s.pipe.length) s

end Sys2Proof.Machine
end

