-- ==== Sys2Proof/Machine/Block.lean ====
section
/-! DEFINITION. Block transfers (45_arm_block_transfer.md, R468 to R471): the sequence of word accesses, what an abort
leaves (R336), the base in the list (R337), one meaning an instruction. -/

namespace Sys2Proof.Machine

/-- What a sequence of accesses met: the words loaded before the first abort, that abort, a stop. -/
structure Block where
  loaded : List (Reg × Word)
  abort : Option AbortInfo
  stop : Option Refusal
  deriving DecidableEq, Repr

/-- Nothing met yet. -/
def Block.empty : Block := ⟨[], none, none⟩

/-- Whether no more accesses are made: after a stop, and after an abort unless the block goes on attempting
transfers (R336, U26). -/
def Block.ended (continues : Bool) (b : Block) : Bool :=
  b.stop.isSome || (b.abort.isSome && !continues)

/-- A load's result taken in: after an abort loaded words are discarded and the first abort stands
(R336). -/
def Block.take (b : Block) (i : Reg) : Got Word → Block
  | .ok w => if b.abort.isSome then b else { b with loaded := b.loaded ++ [(i, w)] }
  | .abort x => if b.abort.isSome then b else { b with abort := some x }
  | .stop r => { b with stop := some r }

/-- A store's result taken in. -/
def Block.takeStore (b : Block) : Got Unit → Block
  | .ok () => b
  | .abort x => if b.abort.isSome then b else { b with abort := some x }
  | .stop r => { b with stop := some r }

/-- One word access a register, in ascending order of number and address (R331); the kind is that of the
first. -/
def State.loadWords (k : Access) (priv : Bool) : List Reg → Word → Block → State → Block × State
  | [], _, b, s => (b, s)
  | i :: rest, a, b, s =>
    if b.ended s.platform.stmContinue then (b, s)
    else
      let (got, s) := s.load k .word priv a
      State.loadWords k.next priv rest (a + 4) (b.take i got) s

/-- One word store a value, at ascending addresses (R331). -/
def State.storeWords (k : Access) (priv : Bool) : List Word → Word → Block → State → Block × State
  | [], _, b, s => (b, s)
  | v :: rest, a, b, s =>
    if b.ended s.platform.stmContinue then (b, s)
    else
      let (got, s) := s.store k .word priv a v
      State.storeWords k.next priv rest (a + 4) (b.takeStore got) s

/-- The loaded words written to a mode's bank, but for one register and r15. -/
def State.writeLoaded (bank : Mode) (except : Option Reg) : List (Reg × Word) → State → State
  | [], s => s
  | (i, w) :: rest, s =>
    State.writeLoaded bank except rest (if except = some i then s else s.setBankReg bank i w)

/-- A block load as its instruction gives it: where, from which base, into which bank. -/
structure LoadBlock where
  start : Word
  rn : Reg
  /-- The value written back to the base, when it is. -/
  newBase : Option Word
  regs : List Reg
  bank : Mode
  deriving DecidableEq, Repr

/-- The base write-back of a block transfer (R330, R336). -/
def State.writeBlockBase (rn : Reg) (newBase : Option Word) (s : State) : State :=
  match newBase with
  | none => s
  | some v => s.setReg rn v

/-- An aborted block load (R336): the words read before the abort are written, except the base; the base
is updated; Data Abort. -/
def State.abortLoadBlock (p : LoadBlock) (b : Block) (i : AbortInfo) (s : State) : State :=
  ((s.writeLoaded p.bank (some p.rn) b.loaded).writeBlockBase p.rn p.newBase).takeDataAbort i

/-- The registers after a block load (R332, R337): the base, then the loaded words. -/
def State.completeLoadBlock (p : LoadBlock) (b : Block) (s : State) : State :=
  (s.writeBlockBase p.rn p.newBase).writeLoaded p.bank none b.loaded

/-- The word loaded for r15. -/
def Block.pcWord (b : Block) : Word := (b.loaded.lookup 15).getD 0

/-- A block load, and then what the instruction does with its end. -/
def State.loadMultiple (p : LoadBlock) (finish : Block → State → Out) (s : State) : Out :=
  let (b, s) := s.loadWords .blockRead s.privileged p.regs p.start .empty
  match b.stop with
  | some r => .refused r
  | none =>
    match b.abort with
    | some i => .next (s.abortLoadBlock p b i)
    | none => finish b (s.completeLoadBlock p b)

/-- The end of a load whose list may hold r15: a branch if it does (R332, R469). -/
def endLoad (regs : List Reg) (b : Block) (s : State) : Out :=
  if regs.contains 15 then .next (s.branchTo b.pcWord) else .next s.advance

/-- A block store (R335, R336): the values, then the base write-back. -/
def State.storeMultiple (start : Word) (rn : Reg) (newBase : Option Word) (values : List Word)
    (finish : State → State) (s : State) : Out :=
  let (b, s) := s.storeWords .blockWrite s.privileged values start .empty
  match b.stop with
  | some r => .refused r
  | none =>
    let s := s.writeBlockBase rn newBase
    match b.abort with
    | some i => .next (s.takeDataAbort i)
    | none => .next (finish s)

/-- The values a block store stores, read before the base is written back (R335, R337). -/
def State.storedValues (regs : List Reg) (s : State) : List Word := regs.map s.storeReg

/-- What a User-bank store stores (R338). -/
def State.userValues (regs : List Reg) (s : State) : List Word :=
  regs.map fun i => if i = 15 then s.pcRead + 4 else s.userReg i

/-- Whether the mode has no bank of its own, so that the User-bank forms are not allowed (R333). -/
def State.userBankMode (s : State) : Bool := s.mode == .usr || s.mode == .sys

/-- LDM (R330, R332 to R334, R336, R337). -/
def execLdm (m : BlockMode) (c : Cond) (sf wb : Bool) (rn : Reg) (list : BitVec 16) (s : State) : Out :=
  s.conditional c (ldmRestriction sf wb rn list)
    (fun s =>
      let regs := listedRegs list
      let base := s.reg rn
      let bytes := listBytes regs
      let p : LoadBlock :=
        { start := m.start base bytes
          rn := rn
          newBase := if wb then some (m.newBase base bytes) else none
          regs := regs
          bank := if sf && !list.getLsbD 15 then .usr else s.mode }
      if sf then
        if list.getLsbD 15 then
          if s.spsr.isNone then .refused .noSpsr
          else s.loadMultiple p fun b s => s.returnTo b.pcWord
        else if s.userBankMode then .refused .userBankMode
        else s.loadMultiple p fun _ s => .next { s.advance with userBank := true }
      else s.loadMultiple p (endLoad regs))

/-- STM (R330, R335 to R338). -/
def execStm (m : BlockMode) (c : Cond) (sf wb : Bool) (rn : Reg) (list : BitVec 16) (s : State) : Out :=
  s.conditional c (stmRestriction sf wb rn list)
    (fun s =>
      let regs := listedRegs list
      let base := s.reg rn
      let bytes := listBytes regs
      let newBase := if wb then some (m.newBase base bytes) else none
      if sf then
        if s.userBankMode then .refused .userBankMode
        else s.storeMultiple (m.start base bytes) rn newBase (s.userValues regs)
          fun s => { s.advance with userBank := true }
      else s.storeMultiple (m.start base bytes) rn newBase (s.storedValues regs) State.advance)

/-- LDMIA (R341). -/
def execArmLdmia (c : Cond) (sf wb : Bool) (rn : Reg) (list : BitVec 16) (s : State) : Out :=
  execLdm .ia c sf wb rn list s

/-- STMIA (R345). -/
def execArmStmia (c : Cond) (sf wb : Bool) (rn : Reg) (list : BitVec 16) (s : State) : Out :=
  execStm .ia c sf wb rn list s

/-- LDMIB (R342). -/
def execArmLdmib (c : Cond) (sf wb : Bool) (rn : Reg) (list : BitVec 16) (s : State) : Out :=
  execLdm .ib c sf wb rn list s

/-- STMIB (R346). -/
def execArmStmib (c : Cond) (sf wb : Bool) (rn : Reg) (list : BitVec 16) (s : State) : Out :=
  execStm .ib c sf wb rn list s

/-- LDMDA (R343). -/
def execArmLdmda (c : Cond) (sf wb : Bool) (rn : Reg) (list : BitVec 16) (s : State) : Out :=
  execLdm .da c sf wb rn list s

/-- STMDA (R347). -/
def execArmStmda (c : Cond) (sf wb : Bool) (rn : Reg) (list : BitVec 16) (s : State) : Out :=
  execStm .da c sf wb rn list s

/-- LDMDB (R344). -/
def execArmLdmdb (c : Cond) (sf wb : Bool) (rn : Reg) (list : BitVec 16) (s : State) : Out :=
  execLdm .db c sf wb rn list s

/-- STMDB (R348). -/
def execArmStmdb (c : Cond) (sf wb : Bool) (rn : Reg) (list : BitVec 16) (s : State) : Out :=
  execStm .db c sf wb rn list s

/-- Thumb PUSH (R468): STMDB r13!. -/
def execThumbPush (lr : Bool) (list : BitVec 8) (s : State) : Out :=
  s.unconditional (pushRestriction lr list)
    (fun s =>
      let regs := listedRegs list ++ if lr then [14] else []
      let start := s.reg 13 - listBytes regs
      s.storeMultiple start 13 (some start) (regs.map s.reg) State.advance)

/-- Thumb POP (R469): LDMIA r13!; a loaded PC stays in Thumb state. -/
def execThumbPop (pc : Bool) (list : BitVec 8) (s : State) : Out :=
  s.unconditional (pushRestriction pc list)
    (fun s =>
      let regs := listedRegs list ++ if pc then [15] else []
      let base := s.reg 13
      s.loadMultiple ⟨base, 13, some (base + listBytes regs), regs, s.mode⟩ (endLoad regs))

/-- Thumb STMIA (R470). -/
def execThumbStmia (rb : LowReg) (list : BitVec 8) (s : State) : Out :=
  s.unconditional (thumbStmiaRestriction rb list)
    (fun s =>
      let regs := listedRegs list
      let base := s.reg rb.reg
      s.storeMultiple base rb.reg (some (base + listBytes regs)) (s.storedValues regs) State.advance)

/-- Thumb LDMIA (R471). -/
def execThumbLdmia (rb : LowReg) (list : BitVec 8) (s : State) : Out :=
  s.unconditional (thumbLdmiaRestriction rb list)
    (fun s =>
      let regs := listedRegs list
      let base := s.reg rb.reg
      s.loadMultiple ⟨base, rb.reg, some (base + listBytes regs), regs, s.mode⟩ (endLoad regs))

end Sys2Proof.Machine
end

