-- ==== Sys2Proof/Machine/Branch.lean ====
section
/-! DEFINITION. The branches of both states (43_arm_branch.md, R429, R475, R481 to R484) and SWI (R352, R480). -/

namespace Sys2Proof.Machine

/-- CPSR.T written (R33). -/
def State.setThumb (b : Bool) (s : State) : State :=
  { s with cpsr := s.cpsr.extractLsb' 6 26 ++ flagBit b ++ s.cpsr.extractLsb' 0 5 }

/-- Branch and exchange (R292, R429): bit 0 selects the state; an ARM-state target is word-aligned, unless
bit 1 is to be ignored. -/
def State.exchange (ignoreBit1 : Bool) (v : Word) (s : State) : Out :=
  if v.extractLsb' 0 2 = 2#2 && !ignoreBit1 then .refused .bxMisaligned
  else .next ((s.setThumb (v.getLsbD 0)).branchTo v)

/-- The 24-bit branch offset in bytes (R193). -/
def armOffset (offset : BitVec 24) : Word := (offset ++ 0#2).signExtend 32

/-- B (R290). -/
def execArmB (c : Cond) (offset : BitVec 24) (s : State) : Out :=
  s.conditional c none (fun s => .next (s.branchTo (s.pcRead + armOffset offset)))

/-- BL (R291): r14 is the next instruction's address. -/
def execArmBl (c : Cond) (offset : BitVec 24) (s : State) : Out :=
  s.conditional c none
    (fun s => .next ((s.setReg 14 (s.pc + s.len)).branchTo (s.pcRead + armOffset offset)))

/-- BX (R292). -/
def execArmBx (c : Cond) (rm : Reg) (s : State) : Out :=
  s.conditional c (notPcRestriction rm) (fun s => s.exchange false (s.reg rm))

/-- SWI (R352): the comment field is not examined. -/
def execArmSwi (c : Cond) (_imm : BitVec 24) (s : State) : Out :=
  s.conditional c none (fun s => .next s.takeSwi)

/-- Thumb BX (R429). Of the BX PC that leaves Thumb state in debug state (R549) bit 1 of the PC is ignored
(DEDUCED, log 42). -/
def execThumbBx (rm : Reg) (s : State) : Out := s.exchange (s.dbg.ack && rm == 15) (s.reg rm)

/-- Thumb conditional branch (R475). -/
def execThumbBCond (c : Cond) (offset : BitVec 8) (s : State) : Out :=
  s.conditional c none (fun s => .next (s.branchTo (s.pcRead + (offset ++ 0#1).signExtend 32)))

/-- Thumb B (R481). -/
def execThumbB (offset : BitVec 11) (s : State) : Out :=
  .next (s.branchTo (s.pcRead + (offset ++ 0#1).signExtend 32))

/-- The first half of Thumb BL (R482). -/
def execThumbBlHigh (offset : BitVec 11) (s : State) : Out :=
  .next (s.setReg 14 (s.pcRead + (offset ++ 0#12).signExtend 32)).advance

/-- The second half of Thumb BL (R483): r14 is the next instruction's address with bit 0 set. -/
def execThumbBlLow (offset : BitVec 11) (s : State) : Out :=
  .next ((s.setReg 14 ((s.pc + s.len) ||| 1)).branchTo (s.reg 14 + (offset ++ 0#1).zeroExtend 32))

/-- Thumb SWI (R480). -/
def execThumbSwi (_imm : BitVec 8) (s : State) : Out := .next s.takeSwi

end Sys2Proof.Machine
end

