-- ==== Sys2Proof/Machine/Cp15.lean ====
section
/-! DEFINITION. The operations of CP15 (R365) and CP14 (R366) on their registers, the cache and the TLB. -/

namespace Sys2Proof.Machine

/-! ## The c9, c10 and c15 test operations (R55 to R58) -/

/-- The segment in the Rd of a CAM operation: bits [6:5] (R55, R57). -/
def camSegment (v : Word) : Fin 4 := (v.extractLsb' 5 2).toFin

/-- Moves a segment's victim pointer on (R55), from 63 to 0 (DESIGN CHOICE, log 11). -/
def MemSys.bumpCacheVictim (seg : Fin 4) (ms : MemSys) : MemSys :=
  { ms with cacheVictim := ms.cacheVictim.set seg (ms.cacheVictim[seg] + 1) }

/-- Moves it on after a RAM operation: only when "victim and lockdown base" was written last (R55). The last c9
write to any segment decides for all four (DESIGN CHOICE, log 11). -/
def MemSys.bumpAfterRam (seg : Fin 4) (ms : MemSys) : MemSys :=
  if ms.cacheStep then ms.bumpCacheVictim seg else ms

/-- The line a test operation addresses: the segment's victim (R57). -/
def MemSys.victimLine (seg : Fin 4) (ms : MemSys) : CacheLine :=
  ms.cache[seg][ms.cacheVictim[seg].toFin]

/-- The victim index in the Rd of a c9 write (R55): 0 when nothing but the segment is set, as in Example
11-1; else the lost format says. -/
def victimIndex (v : Word) : BitVec 6 := if v &&& 0xffffff9f = 0 then 0 else Config.c9Index v

/-- Write cache victim and lockdown base (R55): the pointer of every segment, and the index 0 where bits [6:5]
alone are set, as for the other write (DESIGN CHOICE, log 11: its Rd names no segment and its format is
lost). -/
def MemSys.writeVictimBase (v : Word) (ms : MemSys) : MemSys :=
  { ms with
    cacheVictim := Vector.replicate 4 (victimIndex v)
    cacheBase := victimIndex v
    cacheStep := true }

/-- Write cache victim (R55). -/
def MemSys.writeVictim (v : Word) (ms : MemSys) : MemSys :=
  { ms with cacheVictim := ms.cacheVictim.set (camSegment v) (victimIndex v), cacheStep := false }

/-- Cache CAM read to C15.C (R57): bits 5 and 6 read as 0; bit 0, the LFSR bit, is free at each read. -/
def MemSys.camRead (v : Word) (ms : MemSys) : MemSys :=
  let seg := camSegment v
  let l := ms.victimLine seg
  let (f, ms) := ms.draw
  MemSys.bumpCacheVictim seg { ms with
    c15c := (Config.camData l.tag l.valid ms.cacheVictim[seg] &&& 0xffffff9e) ||| (f &&& 1) }

/-- Cache CAM write (R57): the tag and the valid bit. The Dirty and Writeback bits, "Not used", are not kept
(DESIGN CHOICE, log 11). -/
def MemSys.camWrite (v : Word) (ms : MemSys) : MemSys :=
  let seg := camSegment v
  let l := ms.victimLine seg
  (ms.setLine seg ms.cacheVictim[seg].toFin
    { l with tag := Config.camTag v, valid := Config.camValid v }).bumpCacheVictim seg

/-- Cache RAM read to C15.C (R57). -/
def MemSys.ramRead (v : Word) (ms : MemSys) : MemSys :=
  let seg := (Config.ramSegment v).toFin
  MemSys.bumpAfterRam seg { ms with c15c := (ms.victimLine seg).words[(Config.ramWord v).toFin] }

/-- Cache RAM write from C15.C (R57). -/
def MemSys.ramWrite (v : Word) (ms : MemSys) : MemSys :=
  let seg := (Config.ramSegment v).toFin
  let l := ms.victimLine seg
  (ms.setLine seg ms.cacheVictim[seg].toFin
    { l with words := l.words.set (Config.ramWord v).toFin ms.c15c }).bumpAfterRam seg

/-- Cache CAM match, RAM read to C15.C (R57): on a miss no line is filled and the word is free; of two lines
that match, the lowest answers (DESIGN CHOICE, log 11). -/
def MemSys.camMatch (v : Word) (ms : MemSys) : MemSys :=
  let seg := camSegment v
  let found := ms.cache[seg].toList.find? fun l => l.valid && l.tag == Config.camMatchTag v
  let (w, ms) :=
    match found with
    | some l => (l.words[(Config.camMatchWord v).toFin], ms)
    | none => ms.draw
  MemSys.bumpAfterRam seg { ms with c15c := w }

/-- SIZE_C (R58, Table 11-7). -/
def TlbSize.sizeC : TlbSize → BitVec 4
  | .mb1 => 0b1111
  | .kb64 => 0b0111
  | .kb16 => 0b0011
  | .kb4 => 0b0001
  | .kb1 => 0b0000

/-- The size a SIZE_C code names; a code Table 11-7 lacks leaves the entry's size (R58). -/
def sizeOfC (code : BitVec 4) (old : TlbSize) : TlbSize :=
  match code with
  | 0b1111 => .mb1
  | 0b0111 => .kb64
  | 0b0011 => .kb16
  | 0b0001 => .kb4
  | 0b0000 => .kb1
  | _ => old

/-- SIZE_R2 (R58, Table 11-10). -/
def TlbSize.sizeR2 : TlbSize → BitVec 4
  | .mb1 => 0b1000
  | .kb64 => 0b0100
  | .kb16 => 0b0010
  | .kb4 => 0b0000
  | .kb1 => 0b0001

/-- The size a SIZE_R2 code names; a code Table 11-10 lacks leaves the entry's size (R58). -/
def sizeOfR2 (code : BitVec 4) (old : TlbSize) : TlbSize :=
  match code with
  | 0b1000 => .mb1
  | 0b0100 => .kb64
  | 0b0010 => .kb16
  | 0b0000 => .kb4
  | 0b0001 => .kb1
  | _ => old

/-- AP as RAM1 holds it, one-hot (R58, Table 11-8). -/
def oneHotAp (ap : BitVec 2) : BitVec 4 := 1#4 <<< ap.toNat

/-- The AP a one-hot code names; a code Table 11-8 lacks leaves the entry's AP (R58). -/
def apOfOneHot (code : BitVec 4) (old : BitVec 2) : BitVec 2 :=
  match code with
  | 0b1000 => 3
  | 0b0100 => 2
  | 0b0010 => 1
  | 0b0001 => 0
  | _ => old

/-- The TLB entry a pointer addresses. -/
def MemSys.tlbAt (p : BitVec 6) (ms : MemSys) : TlbEntry := ms.tlb[p.toFin]

/-- A TLB entry replaced. -/
def MemSys.setTlb (p : BitVec 6) (e : TlbEntry) (ms : MemSys) : MemSys :=
  { ms with tlb := ms.tlb.set p.toFin e }

/-- Write TLB victim, lockdown base and preserve bit (R56): 0 loads the victim pointer with 0, as in Example
11-2. -/
def MemSys.writeLockdown (v : Word) (ms : MemSys) : MemSys :=
  { ms with
    tlbVictim := if v = 0 then 0 else Config.c10Victim v
    tlbBase := Config.c10Base v, tlbPreserve := Config.c10Preserve v }

/-- MMU CAM read to C15.M; RAM2 then uses this pointer (R58). -/
def MemSys.tlbCamRead (ms : MemSys) : MemSys :=
  let e := ms.tlbAt ms.tlbVictim
  { ms with c15m := Config.tlbCamData e.tag e.size.sizeC e.valid e.preserve, ram2Pointer := ms.tlbVictim }

/-- MMU CAM write (R58). -/
def MemSys.tlbCamWrite (v : Word) (ms : MemSys) : MemSys :=
  let e := ms.tlbAt ms.tlbVictim
  let n := sizeOfC (Config.tlbCamSize v) e.size
  MemSys.setTlb ms.tlbVictim
    { e with
      tag := n.page (Config.tlbCamTag v), size := n, valid := Config.tlbCamValid v,
      preserve := Config.tlbCamPreserve v }
    { ms with ram2Pointer := ms.tlbVictim }

/-- RAM1 of an entry as C15.M holds it. -/
def TlbEntry.ram1 (e : TlbEntry) : Word :=
  Config.tlbRam1Data (oneHotAp e.ap) e.domain e.cachable e.bufferable

/-- MMU RAM1 read to C15.M (R58). -/
def MemSys.tlbRam1Read (ms : MemSys) : MemSys :=
  { ms with c15m := (ms.tlbAt ms.tlbVictim).ram1, ram2Pointer := ms.tlbVictim }

/-- MMU RAM1 write (R58). -/
def MemSys.tlbRam1Write (v : Word) (ms : MemSys) : MemSys :=
  let e := ms.tlbAt ms.tlbVictim
  MemSys.setTlb ms.tlbVictim
    { e with
      ap := apOfOneHot (Config.tlbRam1Ap v) e.ap, domain := Config.tlbRam1Domain v,
      cachable := Config.tlbRam1Cachable v, bufferable := Config.tlbRam1Bufferable v }
    { ms with ram2Pointer := ms.tlbVictim }

/-- MMU RAM2 read to C15.M, at the pipelined pointer; the victim pointer moves on (R58). -/
def MemSys.tlbRam2Read (ms : MemSys) : MemSys :=
  let e := ms.tlbAt ms.ram2Pointer
  { ms with c15m := Config.tlbRam2Data e.base e.baseSize.sizeR2, tlbVictim := ms.nextTlbVictim }

/-- MMU RAM2 write, at the pipelined pointer; the victim pointer moves on (R58). -/
def MemSys.tlbRam2Write (v : Word) (ms : MemSys) : MemSys :=
  let e := ms.tlbAt ms.ram2Pointer
  let n := sizeOfR2 (Config.tlbRam2Size v) e.baseSize
  MemSys.setTlb ms.ram2Pointer { e with base := n.page (Config.tlbRam2Tag v), baseSize := n }
    { ms with tlbVictim := ms.nextTlbVictim }

/-- Bits [24:22] of a match result: protection fault, domain fault, miss (R58, Table 11-9). -/
def withMatchBits (w : Word) (bits : BitVec 3) : Word :=
  w.extractLsb' 25 7 ++ bits ++ w.extractLsb' 0 22

/-- MMU CAM match, RAM1 read to C15.M (R58): a miss walks no table and leaves the other bits free. The
protection is that of a privileged read, and RAM2's pointer stays (DESIGN CHOICE, log 11). -/
def MemSys.tlbCamMatch (cp : Cp15) (mva : Word) (ms : MemSys) : MemSys :=
  match ms.tlbLookup mva with
  | some e =>
    let access := cp.domainAccess e.domain
    let domainFault := access == 0 || access == 2
    let protFault := access != 3 && !permits cp.systemBit cp.romBit e.ap true false
    { ms with c15m := withMatchBits e.ram1 (flagBit protFault ++ flagBit domainFault ++ 0#1) }
  | none =>
    let (f, ms) := ms.draw
    { ms with c15m := withMatchBits f (f.extractLsb' 0 2 ++ 1#1) }

/-! ## Reading CP15 -/

/-- What an operation of a coprocessor register answers. -/
abbrev CpOut (α : Type) := Except Refusal α

/-- The Control Register as it is read (R43, U8). -/
def Cp15.readControl (cp : Cp15) (free : Word) : Word :=
  free.extractLsb' 14 18 ++ cp.control.extractLsb' 13 1 ++ free.extractLsb' 10 3 ++
    cp.control.extractLsb' 0 10

/-- The FSR as it is read (R47, U9). -/
def Cp15.readFsr (cp : Cp15) (free : Word) : Word := free.extractLsb' 9 23 ++ 0#1 ++ cp.fsr

/-- An operation that needs the Test State Register on (R54, U13). -/
def testOnly {α : Type} (cp : Cp15) (x : α) : CpOut α :=
  if cp.testOn then .ok x else .error .testStateOff

/-- MRC from CP15 in a privileged mode (R365): the value. -/
def State.cp15Value (op1 : BitVec 3) (crn crm : BitVec 4) (op2 : BitVec 3) (free : Word)
    (s : State) : CpOut Word :=
  match op1.toNat, crn.toNat, crm.toNat, op2.toNat with
  | 0, 0, 0, 0 => .ok (Config.idUpper ++ s.platform.revision)
  | 0, 1, 0, 0 => .ok (s.cp15.readControl free)
  | 0, 2, 0, 0 => .ok (s.cp15.ttb ++ free.extractLsb' 0 14)
  | 0, 3, 0, 0 => .ok s.cp15.dacr
  | 0, 5, 0, 0 => .ok (s.cp15.readFsr free)
  | 0, 6, 0, 0 => .ok s.cp15.far
  | 0, 13, 0, 0 => .ok (s.cp15.pid ++ free.extractLsb' 0 25)
  | 0, 13, 0, 1 => .ok s.cp15.procId
  | 7, 15, 15, 7 => .ok (free.extractLsb' 1 31 ++ flagBit s.cp15.testOn)
  | 0, 10, 0, 0 =>
    testOnly s.cp15 (Config.c10Data s.memsys.tlbVictim s.memsys.tlbBase s.memsys.tlbPreserve)
  | 3, 15, 3, 0 => testOnly s.cp15 s.memsys.c15c
  | 4, 15, 3, 0 => testOnly s.cp15 s.memsys.c15m
  | _, _, _, _ => .error .cp15Unpredictable

/-- The state after a read of CP15: what c1 was read as may be written back to it (R43, U8). -/
def State.noteRead (crn : BitVec 4) (v : Word) (s : State) : State :=
  if crn = 1 then { s with cp15 := { s.cp15 with controlReads := v :: s.cp15.controlReads } } else s

/-- MRC from CP15 in a privileged mode (R365): the value and the state after it. -/
def State.cp15Read (op1 : BitVec 3) (crn crm : BitVec 4) (op2 : BitVec 3) (s : State) :
    CpOut (Word × State) :=
  let (free, s) := s.draw
  match s.cp15Value op1 crn crm op2 free with
  | .ok v => .ok (v, s.noteRead crn v)
  | .error r => .error r

/-! ## Writing CP15 -/

/-- A write whose bits under a mask Should Be Zero (R45, R47, R51, U9). -/
def sbzWrite (mask v : Word) (s : State) : CpOut State :=
  if v &&& mask = 0 then .ok s else .error .cp15SbzBits

/-- Whether a write of c1 may have these values in bits [31:14] and [12:10]: zero, or what was read from
them (R43, U8). -/
def Cp15.controlSbz (cp : Cp15) (v : Word) : Bool :=
  (v.extractLsb' 14 18 == 0 || cp.controlReads.any fun r => r.extractLsb' 14 18 == v.extractLsb' 14 18) &&
    (v.extractLsb' 10 3 == 0 || cp.controlReads.any fun r => r.extractLsb' 10 3 == v.extractLsb' 10 3)

/-- The Control Register a value makes: V, R, S, B, W, C, A, M from it, P, D, L constant 1 (R43). -/
def controlOf (v : Word) : Word :=
  0#18 ++ v.extractLsb' 13 1 ++ 0#3 ++ v.extractLsb' 7 3 ++ 7#3 ++ v.extractLsb' 0 4

/-- A write of c1 (R43, R44): bits that Should Be Zero (U8), and C or W set with M clear (U10), are
refused. -/
def State.writeControl (v : Word) (s : State) : CpOut State :=
  if !s.cp15.controlSbz v then .error .cp15SbzBits
  else if (v.getLsbD 2 || v.getLsbD 3) && !v.getLsbD 0 then .error .cacheWithoutMmu
  else .ok { s with cp15 := { s.cp15 with control := controlOf v } }

/-- A memory-system operation in test state. -/
def State.testOp (f : MemSys → MemSys) (s : State) : CpOut State :=
  testOnly s.cp15 { s with memsys := f s.memsys }

/-- MCR to CP15 in a privileged mode (R365): bits of c2, c5 and c13 that Should Be Zero are refused when they
are not (U9); the data of the c7 and c8 operations that need none is ignored (R365, log 18). -/
def State.cp15Write (op1 : BitVec 3) (crn crm : BitVec 4) (op2 : BitVec 3) (v : Word)
    (s : State) : CpOut State :=
  match op1.toNat, crn.toNat, crm.toNat, op2.toNat with
  | 0, 1, 0, 0 => s.writeControl v
  | 0, 2, 0, 0 => sbzWrite 0x00003fff v { s with cp15 := { s.cp15 with ttb := v.extractLsb' 14 18 } }
  | 0, 3, 0, 0 => .ok { s with cp15 := { s.cp15 with dacr := v } }
  | 0, 5, 0, 0 => sbzWrite 0xfffffe00 v { s with cp15 := { s.cp15 with fsr := v.extractLsb' 0 8 } }
  | 0, 6, 0, 0 => .ok { s with cp15 := { s.cp15 with far := v } }
  | 0, 7, 7, 0 => .ok { s with memsys := s.memsys.invalidateCache }
  | 0, 8, 5, 0 => .ok { s with memsys := s.memsys.invalidateTlb }
  | 0, 8, 6, 0 => .ok { s with memsys := s.memsys.invalidateTlb }
  | 0, 8, 7, 0 => .ok { s with memsys := s.memsys.invalidateTlb }
  | 0, 8, 5, 1 => .ok { s with memsys := s.memsys.invalidateTlbEntry v }
  | 0, 8, 6, 1 => .ok { s with memsys := s.memsys.invalidateTlbEntry v }
  | 0, 8, 7, 1 => .ok { s with memsys := s.memsys.invalidateTlbEntry v }
  | 0, 13, 0, 0 => sbzWrite 0x01ffffff v { s with cp15 := { s.cp15 with pid := v.extractLsb' 25 7 } }
  | 0, 13, 0, 1 => .ok { s with cp15 := { s.cp15 with procId := v } }
  | 7, 15, 15, 7 => .ok { s with cp15 := { s.cp15 with testOn := v.getLsbD 0 } }
  | 0, 9, 0, 0 => s.testOp (MemSys.writeVictimBase v)
  | 0, 9, 0, 1 => s.testOp (MemSys.writeVictimBase v)
  | 0, 9, 1, 0 => s.testOp (MemSys.writeVictim v)
  | 0, 9, 1, 1 => s.testOp (MemSys.writeVictim v)
  | 0, 10, 0, 0 => s.testOp (MemSys.writeLockdown v)
  | 2, 15, 7, 2 => s.testOp (MemSys.camRead v)
  | 2, 15, 7, 6 => s.testOp (MemSys.camWrite v)
  | 2, 15, 11, 2 => s.testOp (MemSys.ramRead v)
  | 2, 15, 11, 6 => s.testOp (MemSys.ramWrite v)
  | 2, 15, 7, 5 => s.testOp (MemSys.camMatch v)
  | 3, 15, 3, 0 => s.testOp fun ms => { ms with c15c := v }
  | 4, 15, 7, 4 => s.testOp MemSys.tlbCamRead
  | 4, 15, 7, 0 => s.testOp (MemSys.tlbCamWrite v)
  | 4, 15, 11, 4 => s.testOp MemSys.tlbRam1Read
  | 4, 15, 11, 0 => s.testOp (MemSys.tlbRam1Write v)
  | 4, 15, 3, 5 => s.testOp MemSys.tlbRam2Read
  | 4, 15, 3, 1 => s.testOp (MemSys.tlbRam2Write v)
  | 4, 15, 13, 4 => s.testOp (MemSys.tlbCamMatch s.cp15 v)
  | _, _, _, _ => .error .cp15Unpredictable

/-! ## CP14 -/

/-- The DCC Control Register as MRC reads it: version b0111, W, R (R61). -/
def Cp14.control (cp : Cp14) : Word := 7#4 ++ 0#26 ++ flagBit cp.w ++ flagBit cp.r

/-- MRC from CP14 (R366): the value and the registers after it; none of the five forms: none. -/
def Cp14.read (op1 : BitVec 3) (crn crm : BitVec 4) (op2 : BitVec 3) (cp : Cp14) : Option (Word × Cp14) :=
  match op1.toNat, crn.toNat, crm.toNat, op2.toNat with
  | 0, 0, 0, 0 => some (cp.control, cp)
  | 0, 1, 0, 0 => some (cp.dccRead, { cp with r := false })
  | 0, 2, 0, 0 => some (0#31 ++ flagBit cp.dbgAbt, cp)
  | _, _, _, _ => none

/-- MCR to CP14 (R366). -/
def Cp14.write (op1 : BitVec 3) (crn crm : BitVec 4) (op2 : BitVec 3) (v : Word) (cp : Cp14) :
    Option Cp14 :=
  match op1.toNat, crn.toNat, crm.toNat, op2.toNat with
  | 0, 1, 0, 0 => some { cp with dccWrite := v, w := true }
  | 0, 2, 0, 0 => some { cp with dbgAbt := v.getLsbD 0 }
  | _, _, _, _ => none

end Sys2Proof.Machine
end

