-- ==== Sys2Proof/Machine/Coproc.lean ====
section
/-! DEFINITION. The coprocessor instructions (46_arm_swap_swi_coproc.md, R354 to R368). -/

namespace Sys2Proof.Machine

/-- No coprocessor at the number answers (R355). -/
def CoprocReply.none : CoprocReply := ⟨.absent, 0, []⟩

/-- Whether an external coprocessor is attached at a number: never 14 or 15 (R354, U32). -/
def Platform.attached (p : Platform) (cp : BitVec 4) : Bool :=
  p.extCoprocs.getLsbD cp.toNat && cp != 14 && cp != 15

/-- Offers an instruction to the external coprocessors (R355): the answer of an attached one. -/
def State.offer (cp : BitVec 4) (s : State) : CoprocReply × State :=
  if s.platform.attached cp then
    match s.coproc with
    | [] => (.none, s)
    | r :: rest => (r, { s with coproc := rest })
  else (.none, s)

/-- What the core sends a coprocessor. -/
def State.call (x : CoprocCall) (s : State) : State := { s with calls := s.calls ++ [x] }

/-- The three answers (R355): the Undefined Instruction trap; the busy-wait, which leaves the instruction
to be offered again unless an interrupt comes first (R356); the instruction's effect. -/
def State.offered (cp : BitVec 4) (effect : CoprocReply → State → Out) (s : State) : Out :=
  let (r, s) := s.offer cp
  match r.answer with
  | .absent => .next s.takeUndefined
  | .busy => .next s
  | .ready => effect r s

/-- The kind of access of a word of LDC, by its number (R331). -/
def loadKind (k : Nat) : Access := if k = 0 then .blockRead else .nextRead

/-- The words of an LDC (R360): loaded and sent until the coprocessor has its last, or an abort. -/
def State.loadCoproc (cp crd : BitVec 4) (n : Bool) (opt : Option (BitVec 8)) :
    Nat → Nat → Word → State → Got Unit × State
  | 0, _, _, s => (.ok (), s)
  | count + 1, k, a, s =>
    match s.load (loadKind k) .word s.privileged a with
    | (.ok w, s) =>
      State.loadCoproc cp crd n opt count (k + 1) (a + 4) (s.call (.loadWord cp crd n opt k w))
    | (.abort i, s) => (.abort i, s)
    | (.stop r, s) => (.stop r, s)

/-- The words of an STC (R361): nonsequential transfers on the bus, each an ordinary write. -/
def State.storeCoproc (cp crd : BitVec 4) (n : Bool) (opt : Option (BitVec 8)) :
    List Word → Nat → Word → State → Got Unit × State
  | [], _, _, s => (.ok (), s)
  | v :: rest, k, a, s =>
    match (s.call (.storeWord cp crd n opt k)).store .write .word s.privileged a v with
    | (.ok (), s) => State.storeCoproc cp crd n opt rest (k + 1) (a + 4) s
    | (.abort i, s) => (.abort i, s)
    | (.stop r, s) => (.stop r, s)

/-- What the coprocessor gets of the offset field: in the unindexed form all of it, as an option (R192). -/
def coprocOption (p wb : Bool) (off : BitVec 8) : Option (BitVec 8) :=
  if !p && !wb then some off else none

/-- The end of a coprocessor transfer (R360, R513). -/
def endTransfer : Got Unit × State → Out
  | (.ok (), s) => .next s.advance
  | (.abort i, s) => .next (s.takeDataAbort i)
  | (.stop r, _) => .refused r

/-- The base of a coprocessor transfer and its write-back (R192, R360): P = 0, W = 0 is the unindexed
form. -/
def State.coprocBase (p up wb : Bool) (rn : Reg) (off : BitVec 8) (s : State) : Word × State :=
  let base := s.reg rn
  let idx := indexed up base ((off ++ 0#2).zeroExtend 32)
  (if p then idx else base, if wb then s.setReg rn idx else s)

/-- CDP (R359). -/
def execArmCdp (c : Cond) (op1 crn crd cp : BitVec 4) (op2 : BitVec 3) (crm : BitVec 4)
    (s : State) : Out :=
  s.conditional c none
    (fun s => s.offered cp fun _ s => .next (s.call (.dataOp cp op1 crd crn crm op2)).advance)

/-- LDC (R360). Its register restrictions come before the offer to a coprocessor (DESIGN CHOICE, log 13). -/
def execArmLdc (c : Cond) (p up n wb : Bool) (rn : Reg) (crd cp : BitVec 4) (off : BitVec 8)
    (s : State) : Out :=
  s.conditional c (ldcRestriction p up wb rn)
    (fun s => s.offered cp fun r s =>
      let (a, s) := s.coprocBase p up wb rn off
      endTransfer (s.loadCoproc cp crd n (coprocOption p wb off) (1 + r.more.length) 0 a))

/-- STC (R361). Its register restrictions come before the offer to a coprocessor (DESIGN CHOICE, log 13). -/
def execArmStc (c : Cond) (p up n wb : Bool) (rn : Reg) (crd cp : BitVec 4) (off : BitVec 8)
    (s : State) : Out :=
  s.conditional c (ldcRestriction p up wb rn)
    (fun s => s.offered cp fun r s =>
      let (a, s) := s.coprocBase p up wb rn off
      endTransfer (s.storeCoproc cp crd n (coprocOption p wb off) (r.first :: r.more) 0 a))

/-- MCR to CP15 (R364, R365): the Undefined Instruction trap in User mode. -/
def State.mcr15 (op1 : BitVec 3) (crn crm : BitVec 4) (op2 : BitVec 3) (v : Word) (s : State) : Out :=
  if s.privileged then
    match s.cp15Write op1 crn crm op2 v with
    | .ok s => .next s.advance
    | .error r => .refused r
  else .next s.takeUndefined

/-- MCR to CP14 (R364, R366). -/
def State.mcr14 (op1 : BitVec 3) (crn crm : BitVec 4) (op2 : BitVec 3) (v : Word) (s : State) : Out :=
  match s.cp14.write op1 crn crm op2 v with
  | some cp => .next ({ s with cp14 := cp }).advance
  | none => .next s.takeUndefined

/-- MCR (R362). Rd = r15 is refused before the coprocessor or the privilege is looked at (DESIGN CHOICE,
log 13). -/
def execArmMcr (c : Cond) (op1 : BitVec 3) (crn : BitVec 4) (rd : Reg) (cp : BitVec 4) (op2 : BitVec 3)
    (crm : BitVec 4) (s : State) : Out :=
  s.conditional c (notPcRestriction rd)
    (fun s =>
      if cp = 15 then s.mcr15 op1 crn crm op2 (s.reg rd)
      else if cp = 14 then s.mcr14 op1 crn crm op2 (s.reg rd)
      else s.offered cp fun _ s => .next (s.call (.write cp op1 crn crm op2 (s.reg rd))).advance)

/-- The end of MRC (R363): with Rd = r15 the flags are bits [31:28] of the value. -/
def State.endMrc (rd : Reg) (v : Word) (s : State) : Out :=
  if rd = 15 then
    .next (s.setFlags (v.getLsbD 31) (v.getLsbD 30) (v.getLsbD 29) (v.getLsbD 28)).advance
  else .next (s.setReg rd v).advance

/-- MRC from CP15 (R364, R365): the Undefined Instruction trap in User mode. -/
def State.mrc15 (op1 : BitVec 3) (crn crm : BitVec 4) (op2 : BitVec 3) (rd : Reg) (s : State) : Out :=
  if s.privileged then
    match s.cp15Read op1 crn crm op2 with
    | .ok (v, s) => s.endMrc rd v
    | .error r => .refused r
  else .next s.takeUndefined

/-- MRC from CP14 (R364, R366). -/
def State.mrc14 (op1 : BitVec 3) (crn crm : BitVec 4) (op2 : BitVec 3) (rd : Reg) (s : State) : Out :=
  match s.cp14.read op1 crn crm op2 with
  | some (v, cp) => State.endMrc rd v { s with cp14 := cp }
  | none => .next s.takeUndefined

/-- MRC (R363). -/
def execArmMrc (c : Cond) (op1 : BitVec 3) (crn : BitVec 4) (rd : Reg) (cp : BitVec 4) (op2 : BitVec 3)
    (crm : BitVec 4) (s : State) : Out :=
  s.conditional c none
    (fun s =>
      if cp = 15 then s.mrc15 op1 crn crm op2 rd
      else if cp = 14 then s.mrc14 op1 crn crm op2 rd
      else s.offered cp fun r s => (s.call (.read cp op1 crn crm op2)).endMrc rd r.first)

end Sys2Proof.Machine
end

