-- ==== Sys2Proof/Machine/DataProc.lean ====
section
/-! DEFINITION. ARM data processing (40_arm_data_processing.md): one shared template (R240), one meaning an
instruction (R244 to R259). -/

namespace Sys2Proof.Machine

/-- A destination-writing instruction (R240): Rd and, with S = 1, the flags; Rd = r15 is a branch (R242),
with S = 1 an exception return that discards the flags (R243). -/
def dataProcWrite (sf : Bool) (rd : Reg) (a : Alu) (s : State) : Out :=
  if rd = 15 then
    if sf then s.returnTo a.value else .next (s.branchTo a.value)
  else .next (((if sf then s.setAluFlags a else s).setReg rd a.value).advance)

/-- The template for the destination-writing instructions (R240): all reads come before any write. -/
def dataProc (c : Cond) (broken : Option Restriction) (sf : Bool) (rd : Reg) (f : State → Alu)
    (s : State) : Out :=
  s.conditional c broken (fun s => dataProcWrite sf rd (f s) s)

/-- The template for the compares and tests (R240): flags only. -/
def dataTest (c : Cond) (broken : Option Restriction) (f : State → Alu) (s : State) : Out :=
  s.conditional c broken (fun s => .next (s.setAluFlags (f s)).advance)

/-- A logical operation on operand 2 (R241): C from the shifter, V kept. -/
def State.logicalOp (f : Word → Word) (op2 : Operand2) (s : State) : Alu :=
  logical (f (s.operand2 op2).value) (s.operand2 op2).carry s.flagV

/-- AND (R244). -/
def execArmAnd (c : Cond) (sf : Bool) (rn rd : Reg) (op2 : Operand2) (s : State) : Out :=
  dataProc c (op2Restriction rn rd op2) sf rd
    (fun s => s.logicalOp (s.reg rn &&& ·) op2) s

/-- EOR (R245). -/
def execArmEor (c : Cond) (sf : Bool) (rn rd : Reg) (op2 : Operand2) (s : State) : Out :=
  dataProc c (op2Restriction rn rd op2) sf rd
    (fun s => s.logicalOp (s.reg rn ^^^ ·) op2) s

/-- SUB (R246). -/
def execArmSub (c : Cond) (sf : Bool) (rn rd : Reg) (op2 : Operand2) (s : State) : Out :=
  dataProc c (op2Restriction rn rd op2) sf rd
    (fun s => addWithCarry (s.reg rn) (~~~(s.operand2 op2).value) true) s

/-- RSB (R247). -/
def execArmRsb (c : Cond) (sf : Bool) (rn rd : Reg) (op2 : Operand2) (s : State) : Out :=
  dataProc c (op2Restriction rn rd op2) sf rd
    (fun s => addWithCarry (s.operand2 op2).value (~~~(s.reg rn)) true) s

/-- ADD (R248). -/
def execArmAdd (c : Cond) (sf : Bool) (rn rd : Reg) (op2 : Operand2) (s : State) : Out :=
  dataProc c (op2Restriction rn rd op2) sf rd
    (fun s => addWithCarry (s.reg rn) (s.operand2 op2).value false) s

/-- ADC (R249). -/
def execArmAdc (c : Cond) (sf : Bool) (rn rd : Reg) (op2 : Operand2) (s : State) : Out :=
  dataProc c (op2Restriction rn rd op2) sf rd
    (fun s => addWithCarry (s.reg rn) (s.operand2 op2).value s.flagC) s

/-- SBC (R250). -/
def execArmSbc (c : Cond) (sf : Bool) (rn rd : Reg) (op2 : Operand2) (s : State) : Out :=
  dataProc c (op2Restriction rn rd op2) sf rd
    (fun s => addWithCarry (s.reg rn) (~~~(s.operand2 op2).value) s.flagC) s

/-- RSC (R251). -/
def execArmRsc (c : Cond) (sf : Bool) (rn rd : Reg) (op2 : Operand2) (s : State) : Out :=
  dataProc c (op2Restriction rn rd op2) sf rd
    (fun s => addWithCarry (s.operand2 op2).value (~~~(s.reg rn)) s.flagC) s

/-- ORR (R256). -/
def execArmOrr (c : Cond) (sf : Bool) (rn rd : Reg) (op2 : Operand2) (s : State) : Out :=
  dataProc c (op2Restriction rn rd op2) sf rd
    (fun s => s.logicalOp (s.reg rn ||| ·) op2) s

/-- BIC (R258). -/
def execArmBic (c : Cond) (sf : Bool) (rn rd : Reg) (op2 : Operand2) (s : State) : Out :=
  dataProc c (op2Restriction rn rd op2) sf rd
    (fun s => s.logicalOp (fun o => s.reg rn &&& ~~~o) op2) s

/-- TST (R252). -/
def execArmTst (c : Cond) (rn : Reg) (op2 : Operand2) (s : State) : Out :=
  dataTest c (op2Restriction rn 0 op2)
    (fun s => s.logicalOp (s.reg rn &&& ·) op2) s

/-- TEQ (R253). -/
def execArmTeq (c : Cond) (rn : Reg) (op2 : Operand2) (s : State) : Out :=
  dataTest c (op2Restriction rn 0 op2)
    (fun s => s.logicalOp (s.reg rn ^^^ ·) op2) s

/-- CMP (R254). -/
def execArmCmp (c : Cond) (rn : Reg) (op2 : Operand2) (s : State) : Out :=
  dataTest c (op2Restriction rn 0 op2)
    (fun s => addWithCarry (s.reg rn) (~~~(s.operand2 op2).value) true) s

/-- CMN (R255). -/
def execArmCmn (c : Cond) (rn : Reg) (op2 : Operand2) (s : State) : Out :=
  dataTest c (op2Restriction rn 0 op2)
    (fun s => addWithCarry (s.reg rn) (s.operand2 op2).value false) s

/-- MOV (R257). -/
def execArmMov (c : Cond) (sf : Bool) (rd : Reg) (op2 : Operand2) (s : State) : Out :=
  dataProc c (op2Restriction 0 rd op2) sf rd (fun s => s.logicalOp id op2) s

/-- MVN (R259). -/
def execArmMvn (c : Cond) (sf : Bool) (rd : Reg) (op2 : Operand2) (s : State) : Out :=
  dataProc c (op2Restriction 0 rd op2) sf rd (fun s => s.logicalOp (~~~ ·) op2) s

end Sys2Proof.Machine
end

