-- ==== Sys2Proof/Machine/LoadStore.lean ====
section
/-! DEFINITION. Single data transfers of ARM state (44_arm_load_store.md): the template of R300 and R311 over one load
and one store, one meaning an instruction. -/

namespace Sys2Proof.Machine

/-- Where a transfer goes: its address, the value written back to the base, if any, and its privilege
(R189, R190, R309). -/
structure Place where
  addr : Word
  base : Option (Reg × Word)
  priv : Bool
  deriving DecidableEq, Repr

/-- The base write-back of a transfer, also made when the access aborts (R317). -/
def State.writeBack (p : Place) (s : State) : State :=
  match p.base with
  | none => s
  | some (rn, v) => s.setReg rn v

/-- A single load (R300, R317): the base first, then Rd, which is not the base written back (R318). An abort
leaves Rd and writes the base. -/
def State.loadTo (n : Size) (p : Place) (value : Word → Word) (rd : Reg) (s : State) : Out :=
  match s.load .read n p.priv p.addr with
  | (.ok w, s) => .next ((s.writeBack p).finish rd (value w))
  | (.abort i, s) => .next ((s.writeBack p).takeDataAbort i)
  | (.stop r, _) => .refused r

/-- A halfword load: at an odd address, where alignment checking is off, the value is free (R97, R316). -/
def State.loadHalfTo (p : Place) (value : Word → Word) (rd : Reg) (s : State) : Out :=
  if p.addr.getLsbD 0 then
    let (f, s) := s.draw
    s.loadTo .half p (fun _ => f) rd
  else s.loadTo .half p value rd

/-- A single store of a datum (R300, R317). -/
def State.storeFrom (n : Size) (p : Place) (v : Word) (s : State) : Out :=
  match s.store .write n p.priv p.addr v with
  | (.ok (), s) => .next (s.writeBack p).advance
  | (.abort i, s) => .next ((s.writeBack p).takeDataAbort i)
  | (.stop r, _) => .refused r

/-- The store of a register (R302). -/
def State.storeRegTo (n : Size) (p : Place) (rd : Reg) (s : State) : Out :=
  s.storeFrom n p (s.storeReg rd)

/-- A halfword store: refused at an odd address with alignment checking off (R97, U20), but not at debug speed,
where it makes no access (R549). -/
def State.storeHalf (p : Place) (rd : Reg) (s : State) : Out :=
  if p.addr.getLsbD 0 && !s.cp15.alignOn && !s.debugSpeed then .refused .oddHalfwordStore
  else s.storeRegTo .half p rd

/-- Where an addressing mode 2 or 3 transfer goes (R189, R190). -/
def State.place (index : Index) (up : Bool) (rn : Reg) (off : Word) (s : State) : Place where
  addr := transferAddress index up (s.reg rn) off
  base := if index.writesBack then some (rn, indexed up (s.reg rn) off) else none
  priv := s.privileged

/-- Where a T variant goes: post-indexed, with User privilege (R309). -/
def State.placeUser (up : Bool) (rn : Reg) (off : Word) (s : State) : Place where
  addr := s.reg rn
  base := some (rn, indexed up (s.reg rn) off)
  priv := false

/-- LDR (R301, R316, R319): the aligned word, rotated. -/
def execArmLdr (c : Cond) (index : Index) (up : Bool) (rn rd : Reg) (off : Offset2)
    (s : State) : Out :=
  s.conditional c (mode2Restriction index.writesBack rn rd off)
    (fun s =>
      let p := s.place index up rn (s.offset2 off)
      s.loadTo .word p (rotateLoaded p.addr) rd)

/-- STR (R302). -/
def execArmStr (c : Cond) (index : Index) (up : Bool) (rn rd : Reg) (off : Offset2)
    (s : State) : Out :=
  s.conditional c (mode2Restriction index.writesBack rn rd off) (fun s => s.storeRegTo .word (s.place index up rn (s.offset2 off)) rd)

/-- LDRB (R303). -/
def execArmLdrb (c : Cond) (index : Index) (up : Bool) (rn rd : Reg) (off : Offset2)
    (s : State) : Out :=
  s.conditional c (mode2DataRestriction index.writesBack rn rd off) (fun s => s.loadTo .byte (s.place index up rn (s.offset2 off)) id rd)

/-- STRB (R304). -/
def execArmStrb (c : Cond) (index : Index) (up : Bool) (rn rd : Reg) (off : Offset2)
    (s : State) : Out :=
  s.conditional c (mode2DataRestriction index.writesBack rn rd off) (fun s => s.storeRegTo .byte (s.place index up rn (s.offset2 off)) rd)

/-- LDRT (R305, R309). -/
def execArmLdrt (c : Cond) (up : Bool) (rn rd : Reg) (off : Offset2)
    (s : State) : Out :=
  s.conditional c (mode2DataRestriction true rn rd off)
    (fun s =>
      let p := s.placeUser up rn (s.offset2 off)
      s.loadTo .word p (rotateLoaded p.addr) rd)

/-- STRT (R306, R309). -/
def execArmStrt (c : Cond) (up : Bool) (rn rd : Reg) (off : Offset2)
    (s : State) : Out :=
  s.conditional c (mode2DataRestriction true rn rd off) (fun s => s.storeRegTo .word (s.placeUser up rn (s.offset2 off)) rd)

/-- LDRBT (R307, R309). -/
def execArmLdrbt (c : Cond) (up : Bool) (rn rd : Reg) (off : Offset2)
    (s : State) : Out :=
  s.conditional c (mode2DataRestriction true rn rd off) (fun s => s.loadTo .byte (s.placeUser up rn (s.offset2 off)) id rd)

/-- STRBT (R308, R309). -/
def execArmStrbt (c : Cond) (up : Bool) (rn rd : Reg) (off : Offset2)
    (s : State) : Out :=
  s.conditional c (mode2DataRestriction true rn rd off) (fun s => s.storeRegTo .byte (s.placeUser up rn (s.offset2 off)) rd)

/-- STRH (R313). -/
def execArmStrh (c : Cond) (index : Index) (up : Bool) (rn rd : Reg) (off : Offset3)
    (s : State) : Out :=
  s.conditional c (mode3Restriction index.writesBack rn rd off) (fun s => s.storeHalf (s.place index up rn (s.offset3 off)) rd)

/-- LDRH (R312). -/
def execArmLdrh (c : Cond) (index : Index) (up : Bool) (rn rd : Reg) (off : Offset3)
    (s : State) : Out :=
  s.conditional c (mode3Restriction index.writesBack rn rd off) (fun s => s.loadHalfTo (s.place index up rn (s.offset3 off)) id rd)

/-- LDRSB (R314). -/
def execArmLdrsb (c : Cond) (index : Index) (up : Bool) (rn rd : Reg) (off : Offset3)
    (s : State) : Out :=
  s.conditional c (mode3Restriction index.writesBack rn rd off) (fun s => s.loadTo .byte (s.place index up rn (s.offset3 off)) signExtendByte rd)

/-- LDRSH (R315). -/
def execArmLdrsh (c : Cond) (index : Index) (up : Bool) (rn rd : Reg) (off : Offset3)
    (s : State) : Out :=
  s.conditional c (mode3Restriction index.writesBack rn rd off) (fun s => s.loadHalfTo (s.place index up rn (s.offset3 off)) signExtendHalf rd)

end Sys2Proof.Machine
end

