-- ==== Sys2Proof/Machine/Multiply.lean ====
section
/-! DEFINITION. The multiplies (41_arm_multiply.md). The flags v4 leaves without meaning are free (R276, D26). -/

namespace Sys2Proof.Machine

/-- The flags of a 32-bit multiply with S = 1: N and Z of the result, C any value, V unchanged (R276). -/
def State.multiplyFlags (r : Word) (s : State) : State :=
  let (f, s) := s.draw
  s.setFlags r.msb (r == 0) (f.getLsbD 29) s.flagV

/-- The flags of a long multiply with S = 1: N and Z of the 64 bits, C and V any value (R276). -/
def State.longMultiplyFlags (p : BitVec 64) (s : State) : State :=
  let (f, s) := s.draw
  s.setFlags p.msb (p == 0) (f.getLsbD 29) (f.getLsbD 28)

/-- MUL and MLA (R276). -/
def multiply (c : Cond) (sf : Bool) (broken : Option Restriction) (rd : Reg) (value : State → Word)
    (s : State) : Out :=
  s.conditional c broken
    (fun s => .next (((if sf then s.multiplyFlags (value s) else s).setReg rd (value s)).advance))

/-- The long multiplies (R276). -/
def multiplyLong (c : Cond) (sf : Bool) (broken : Option Restriction) (rdHi rdLo : Reg)
    (value : State → BitVec 64) (s : State) : Out :=
  s.conditional c broken
    (fun s =>
      let p := value s
      .next ((((if sf then s.longMultiplyFlags p else s).setReg rdHi (p.extractLsb' 32 32)).setReg rdLo
        (p.extractLsb' 0 32)).advance))

/-- RdHi:RdLo (R273, R275). -/
def State.pair (s : State) (hi lo : Reg) : BitVec 64 := s.reg hi ++ s.reg lo

/-- MUL (R270). -/
def execArmMul (c : Cond) (sf : Bool) (rd rs rm : Reg) (s : State) : Out :=
  multiply c sf (mulRestriction rd 0 rs rm) rd (fun s => s.reg rm * s.reg rs) s

/-- MLA (R271). -/
def execArmMla (c : Cond) (sf : Bool) (rd rn rs rm : Reg) (s : State) : Out :=
  multiply c sf (mulRestriction rd rn rs rm) rd (fun s => s.reg rm * s.reg rs + s.reg rn) s

/-- UMULL (R272). -/
def execArmUmull (c : Cond) (sf : Bool) (rdHi rdLo rs rm : Reg) (s : State) : Out :=
  multiplyLong c sf (longMulRestriction rdHi rdLo rs rm) rdHi rdLo
    (fun s => (s.reg rm).zeroExtend 64 * (s.reg rs).zeroExtend 64) s

/-- UMLAL (R273). -/
def execArmUmlal (c : Cond) (sf : Bool) (rdHi rdLo rs rm : Reg) (s : State) : Out :=
  multiplyLong c sf (longMulRestriction rdHi rdLo rs rm) rdHi rdLo
    (fun s => (s.reg rm).zeroExtend 64 * (s.reg rs).zeroExtend 64 + s.pair rdHi rdLo) s

/-- SMULL (R274). -/
def execArmSmull (c : Cond) (sf : Bool) (rdHi rdLo rs rm : Reg) (s : State) : Out :=
  multiplyLong c sf (longMulRestriction rdHi rdLo rs rm) rdHi rdLo
    (fun s => (s.reg rm).signExtend 64 * (s.reg rs).signExtend 64) s

/-- SMLAL (R275). -/
def execArmSmlal (c : Cond) (sf : Bool) (rdHi rdLo rs rm : Reg) (s : State) : Out :=
  multiplyLong c sf (longMulRestriction rdHi rdLo rs rm) rdHi rdLo
    (fun s => (s.reg rm).signExtend 64 * (s.reg rs).signExtend 64 + s.pair rdHi rdLo) s

end Sys2Proof.Machine
end

