-- ==== Sys2Proof/Machine/Psr.lean ====
section
/-! DEFINITION. Status register access (42_arm_status_register.md). -/

namespace Sys2Proof.Machine

/-- The bits of a PSR the field mask selects (R195, R283). -/
def psrMask (mask : BitVec 4) : Word :=
  (if mask.getLsbD 3 then 0xff#8 else 0#8) ++ (if mask.getLsbD 2 then 0xff#8 else 0#8) ++
    (if mask.getLsbD 1 then 0xff#8 else 0#8) ++ (if mask.getLsbD 0 then 0xff#8 else 0#8)

/-- A status word with the selected bits replaced (R283). -/
def mergePsr (psr operand mask : Word) : Word := (psr &&& ~~~mask) ||| (operand &&& mask)

/-- The bits of the CPSR an MSR may write: in User mode the flags byte only (R38, R283), in debug state
all (R284). -/
def State.cpsrMask (mask : BitVec 4) (s : State) : Word :=
  if s.privileged || s.dbg.ack then psrMask mask else psrMask mask &&& 0xff000000

/-- MSR to the CPSR (R283): changing T or writing an illegal mode leaves the machine in a state only Reset
leaves (R33, R35), else execution goes on. -/
def State.writeCpsr (mask : BitVec 4) (operand : Word) (s : State) : State :=
  let psr := mergePsr s.cpsr operand (s.cpsrMask mask)
  if psr.getLsbD 5 != s.cpsr.getLsbD 5 then { s with stuck := some .stateBitChanged }
  else if legalMode psr then ({ s with cpsr := psr }).advance
  else { s with stuck := some .illegalMode }

/-- MSR, both forms (R283). -/
def State.msr (spsr : Bool) (mask : BitVec 4) (operand : Word) (s : State) : Out :=
  if spsr then
    match s.spsr with
    | none => .refused .noSpsr
    | some old => .next (s.setSpsrOf s.mode (mergePsr old operand (psrMask mask))).advance
  else .next (s.writeCpsr mask operand)

/-- MRS (R280): the reserved bits read as any value (R36). -/
def execArmMrs (c : Cond) (spsr : Bool) (rd : Reg) (s : State) : Out :=
  s.conditional c (notPcRestriction rd)
    (fun s =>
      match if spsr then s.spsr else some s.cpsr with
      | none => .refused .noSpsr
      | some psr =>
        let (f, s) := s.draw
        .next (s.setReg rd (readPsr f psr)).advance)

/-- MSR from a register (R281). -/
def execArmMsrReg (c : Cond) (spsr : Bool) (mask : BitVec 4) (rm : Reg) (s : State) : Out :=
  s.conditional c (notPcRestriction rm) (fun s => s.msr spsr mask (s.reg rm))

/-- MSR from an immediate (R282). -/
def execArmMsrImm (c : Cond) (spsr : Bool) (mask : BitVec 4) (rotate : BitVec 4) (imm8 : BitVec 8)
    (s : State) : Out :=
  s.conditional c none (fun s => s.msr spsr mask (rotatedImmediate rotate imm8))

end Sys2Proof.Machine
end

