-- ==== Sys2Proof/Machine/Swap.lean ====
section
/-! DEFINITION. SWP and SWPB (R350, R351, R353). -/

namespace Sys2Proof.Machine

/-- A swap (R350): a locked read outside the cache, an unbuffered write, then Rd. An abort of either leaves
everything but FSR and FAR "as though it had not been executed": a cache line the write phase had hit is put
back. -/
def State.swap (n : Size) (rd : Reg) (value : Word → Word) (a src : Word) (s : State) : Out :=
  match s.load .swapRead n s.privileged a with
  | (.ok w, s1) =>
    match s1.store .swapWrite n s1.privileged a src with
    | (.ok (), s2) => .next (s2.setReg rd (value w)).advance
    | (.abort i, s2) =>
      .next (({ s2 with memsys := { s2.memsys with cache := s1.memsys.cache } }).takeDataAbort i)
    | (.stop r, _) => .refused r
  | (.abort i, s1) => .next (s1.takeDataAbort i)
  | (.stop r, _) => .refused r

/-- SWP (R350). -/
def execArmSwp (c : Cond) (rn rd rm : Reg) (s : State) : Out :=
  s.conditional c (swapRestriction rn rd rm)
    (fun s => s.swap .word rd (rotateLoaded (s.reg rn)) (s.reg rn) (s.reg rm))

/-- SWPB (R351). -/
def execArmSwpb (c : Cond) (rn rd rm : Reg) (s : State) : Out :=
  s.conditional c (swapRestriction rn rd rm)
    (fun s => s.swap .byte rd id (s.reg rn) (s.reg rm))

end Sys2Proof.Machine
end

