-- ==== Sys2Proof/Machine/ThumbAlu.lean ====
section
/-! DEFINITION. Thumb register and arithmetic instructions (47_thumb_alu.md). -/

namespace Sys2Proof.Machine

/-- A Thumb instruction that writes a low register and the flags (R391). -/
def thumbWrite (rd : LowReg) (a : Alu) (s : State) : Out :=
  .next ((s.setAluFlags a).setReg rd.reg a.value).advance

/-- A Thumb instruction that writes the flags only. -/
def thumbTest (a : Alu) (s : State) : Out := .next (s.setAluFlags a).advance

/-- The result of a shift with its flags: V is kept (R434). -/
def State.shiftAlu (x : Shifted) (s : State) : Alu := logical x.value x.carry s.flagV

/-- A logical result: C and V are kept (R434). -/
def State.logicAlu (r : Word) (s : State) : Alu := logical r s.flagC s.flagV

/-- Thumb LSL immediate (R392). -/
def execThumbLslImm (imm5 : BitVec 5) (rs rd : LowReg) (s : State) : Out :=
  thumbWrite rd (s.shiftAlu (shiftImmediate .lsl (s.reg rs.reg) imm5 s.flagC)) s

/-- Thumb LSR immediate (R393). -/
def execThumbLsrImm (imm5 : BitVec 5) (rs rd : LowReg) (s : State) : Out :=
  thumbWrite rd (s.shiftAlu (shiftImmediate .lsr (s.reg rs.reg) imm5 s.flagC)) s

/-- Thumb ASR immediate (R394). -/
def execThumbAsrImm (imm5 : BitVec 5) (rs rd : LowReg) (s : State) : Out :=
  thumbWrite rd (s.shiftAlu (shiftImmediate .asr (s.reg rs.reg) imm5 s.flagC)) s

/-- Thumb ADD register (R395). -/
def execThumbAddReg (rn rs rd : LowReg) (s : State) : Out :=
  thumbWrite rd (addWithCarry (s.reg rs.reg) (s.reg rn.reg) false) s

/-- Thumb SUB register (R396). -/
def execThumbSubReg (rn rs rd : LowReg) (s : State) : Out :=
  thumbWrite rd (addWithCarry (s.reg rs.reg) (~~~(s.reg rn.reg)) true) s

/-- Thumb ADD 3-bit immediate (R397). -/
def execThumbAddImm3 (imm3 : BitVec 3) (rs rd : LowReg) (s : State) : Out :=
  thumbWrite rd (addWithCarry (s.reg rs.reg) (imm3.zeroExtend 32) false) s

/-- Thumb SUB 3-bit immediate (R398). -/
def execThumbSubImm3 (imm3 : BitVec 3) (rs rd : LowReg) (s : State) : Out :=
  thumbWrite rd (addWithCarry (s.reg rs.reg) (~~~(imm3.zeroExtend 32)) true) s

/-- Thumb MOV immediate (R399). -/
def execThumbMovImm (rd : LowReg) (imm8 : BitVec 8) (s : State) : Out :=
  thumbWrite rd (s.logicAlu (imm8.zeroExtend 32)) s

/-- Thumb CMP immediate (R400). -/
def execThumbCmpImm (rd : LowReg) (imm8 : BitVec 8) (s : State) : Out :=
  thumbTest (addWithCarry (s.reg rd.reg) (~~~(imm8.zeroExtend 32)) true) s

/-- Thumb ADD 8-bit immediate (R401). -/
def execThumbAddImm8 (rd : LowReg) (imm8 : BitVec 8) (s : State) : Out :=
  thumbWrite rd (addWithCarry (s.reg rd.reg) (imm8.zeroExtend 32) false) s

/-- Thumb SUB 8-bit immediate (R402). -/
def execThumbSubImm8 (rd : LowReg) (imm8 : BitVec 8) (s : State) : Out :=
  thumbWrite rd (addWithCarry (s.reg rd.reg) (~~~(imm8.zeroExtend 32)) true) s

/-- Thumb AND (R403). -/
def execThumbAnd (rs rd : LowReg) (s : State) : Out :=
  thumbWrite rd (s.logicAlu (s.reg rd.reg &&& s.reg rs.reg)) s

/-- Thumb EOR (R404). -/
def execThumbEor (rs rd : LowReg) (s : State) : Out :=
  thumbWrite rd (s.logicAlu (s.reg rd.reg ^^^ s.reg rs.reg)) s

/-- Thumb LSL register (R405). -/
def execThumbLslReg (rs rd : LowReg) (s : State) : Out :=
  thumbWrite rd (s.shiftAlu (shift .lsl (s.reg rd.reg) ((s.reg rs.reg).toNat % 256) s.flagC)) s

/-- Thumb LSR register (R406). -/
def execThumbLsrReg (rs rd : LowReg) (s : State) : Out :=
  thumbWrite rd (s.shiftAlu (shift .lsr (s.reg rd.reg) ((s.reg rs.reg).toNat % 256) s.flagC)) s

/-- Thumb ASR register (R407). -/
def execThumbAsrReg (rs rd : LowReg) (s : State) : Out :=
  thumbWrite rd (s.shiftAlu (shift .asr (s.reg rd.reg) ((s.reg rs.reg).toNat % 256) s.flagC)) s

/-- Thumb ADC (R408). -/
def execThumbAdc (rs rd : LowReg) (s : State) : Out :=
  thumbWrite rd (addWithCarry (s.reg rd.reg) (s.reg rs.reg) s.flagC) s

/-- Thumb SBC (R409). -/
def execThumbSbc (rs rd : LowReg) (s : State) : Out :=
  thumbWrite rd (addWithCarry (s.reg rd.reg) (~~~(s.reg rs.reg)) s.flagC) s

/-- Thumb ROR (R410). -/
def execThumbRor (rs rd : LowReg) (s : State) : Out :=
  thumbWrite rd (s.shiftAlu (shift .ror (s.reg rd.reg) ((s.reg rs.reg).toNat % 256) s.flagC)) s

/-- Thumb TST (R411). -/
def execThumbTst (rs rd : LowReg) (s : State) : Out :=
  thumbTest (s.logicAlu (s.reg rd.reg &&& s.reg rs.reg)) s

/-- Thumb NEG (R412). -/
def execThumbNeg (rs rd : LowReg) (s : State) : Out :=
  thumbWrite rd (addWithCarry 0 (~~~(s.reg rs.reg)) true) s

/-- Thumb CMP low registers (R413). -/
def execThumbCmpReg (rs rd : LowReg) (s : State) : Out :=
  thumbTest (addWithCarry (s.reg rd.reg) (~~~(s.reg rs.reg)) true) s

/-- Thumb CMN (R414). -/
def execThumbCmn (rs rd : LowReg) (s : State) : Out :=
  thumbTest (addWithCarry (s.reg rd.reg) (s.reg rs.reg) false) s

/-- Thumb ORR (R415). -/
def execThumbOrr (rs rd : LowReg) (s : State) : Out :=
  thumbWrite rd (s.logicAlu (s.reg rd.reg ||| s.reg rs.reg)) s

/-- Thumb MUL (R416): C any value (D26). -/
def execThumbMul (rs rd : LowReg) (s : State) : Out :=
  s.unconditional (thumbMulRestriction rs rd)
    (fun s =>
      let r := s.reg rd.reg * s.reg rs.reg
      let (f, s) := s.draw
      thumbWrite rd (logical r (f.getLsbD 29) s.flagV) s)

/-- Thumb BIC (R417). -/
def execThumbBic (rs rd : LowReg) (s : State) : Out :=
  thumbWrite rd (s.logicAlu (s.reg rd.reg &&& ~~~(s.reg rs.reg))) s

/-- Thumb MVN (R418). -/
def execThumbMvn (rs rd : LowReg) (s : State) : Out :=
  thumbWrite rd (s.logicAlu (~~~(s.reg rs.reg))) s

/-- Thumb ADD high registers (R425, R428). -/
def execThumbAddHi (rm rd : Reg) (s : State) : Out :=
  s.unconditional (highRestriction rm rd) (fun s => .next (s.finish rd (s.reg rd + s.reg rm)))

/-- Thumb CMP high registers (R426). -/
def execThumbCmpHi (rm rd : Reg) (s : State) : Out :=
  s.unconditional (cmpHighRestriction rm rd)
    (fun s => thumbTest (addWithCarry (s.reg rd) (~~~(s.reg rm)) true) s)

/-- Thumb MOV high registers (R427, R428). -/
def execThumbMovHi (rm rd : Reg) (s : State) : Out :=
  s.unconditional (highRestriction rm rd) (fun s => .next (s.finish rd (s.reg rm)))

/-- A word offset in bytes (R203, R204). -/
def wordOffset {w : Nat} (x : BitVec w) : Word := (x ++ 0#2).zeroExtend 32

/-- The PC as a base: word-aligned (R27, R430, R451). -/
def State.pcBase (s : State) : Word := s.pcRead &&& 0xfffffffc

/-- Thumb ADD Rd, PC (R430). -/
def execThumbAddPc (rd : LowReg) (word8 : BitVec 8) (s : State) : Out :=
  .next (s.setReg rd.reg (s.pcBase + wordOffset word8)).advance

/-- Thumb ADD Rd, SP (R431). -/
def execThumbAddSp (rd : LowReg) (word8 : BitVec 8) (s : State) : Out :=
  .next (s.setReg rd.reg (s.reg 13 + wordOffset word8)).advance

/-- Thumb ADD SP (R432). -/
def execThumbIncSp (word7 : BitVec 7) (s : State) : Out :=
  .next (s.setReg 13 (s.reg 13 + wordOffset word7)).advance

/-- Thumb ADD SP negative (R433). -/
def execThumbDecSp (word7 : BitVec 7) (s : State) : Out :=
  .next (s.setReg 13 (s.reg 13 - wordOffset word7)).advance

end Sys2Proof.Machine
end

