-- ==== Sys2Proof/Machine/ThumbMem.lean ====
section
/-! DEFINITION. Thumb loads and stores of one datum (48_thumb_mem_branch.md, R450 to R467). -/

namespace Sys2Proof.Machine

/-- Where a Thumb transfer goes: no base is written, the privilege is the mode's (R450). -/
def State.placeAt (a : Word) (s : State) : Place := ⟨a, none, s.privileged⟩

/-- A word load, rotated at an unaligned address (R450). -/
def State.loadWordAt (a : Word) (rd : LowReg) (s : State) : Out :=
  s.loadTo .word (s.placeAt a) (rotateLoaded a) rd.reg

/-- Thumb LDR PC-relative (R451). -/
def execThumbLdrPc (rd : LowReg) (word8 : BitVec 8) (s : State) : Out :=
  s.loadWordAt (s.pcBase + wordOffset word8) rd

/-- Thumb STR register offset (R452). -/
def execThumbStrReg (ro rb rd : LowReg) (s : State) : Out :=
  s.storeRegTo .word (s.placeAt (s.reg rb.reg + s.reg ro.reg)) rd.reg

/-- Thumb STRB register offset (R453). -/
def execThumbStrbReg (ro rb rd : LowReg) (s : State) : Out :=
  s.storeRegTo .byte (s.placeAt (s.reg rb.reg + s.reg ro.reg)) rd.reg

/-- Thumb LDR register offset (R454). -/
def execThumbLdrReg (ro rb rd : LowReg) (s : State) : Out :=
  s.loadWordAt (s.reg rb.reg + s.reg ro.reg) rd

/-- Thumb LDRB register offset (R455). -/
def execThumbLdrbReg (ro rb rd : LowReg) (s : State) : Out :=
  s.loadTo .byte (s.placeAt (s.reg rb.reg + s.reg ro.reg)) id rd.reg

/-- Thumb STRH register offset (R456). -/
def execThumbStrhReg (ro rb rd : LowReg) (s : State) : Out :=
  s.storeHalf (s.placeAt (s.reg rb.reg + s.reg ro.reg)) rd.reg

/-- Thumb LDRSB register offset (R457). -/
def execThumbLdrsbReg (ro rb rd : LowReg) (s : State) : Out :=
  s.loadTo .byte (s.placeAt (s.reg rb.reg + s.reg ro.reg)) signExtendByte rd.reg

/-- Thumb LDRH register offset (R458). -/
def execThumbLdrhReg (ro rb rd : LowReg) (s : State) : Out :=
  s.loadHalfTo (s.placeAt (s.reg rb.reg + s.reg ro.reg)) id rd.reg

/-- Thumb LDRSH register offset (R459). -/
def execThumbLdrshReg (ro rb rd : LowReg) (s : State) : Out :=
  s.loadHalfTo (s.placeAt (s.reg rb.reg + s.reg ro.reg)) signExtendHalf rd.reg

/-- Thumb STR immediate offset (R460). -/
def execThumbStrImm (imm5 : BitVec 5) (rb rd : LowReg) (s : State) : Out :=
  s.storeRegTo .word (s.placeAt (s.reg rb.reg + wordOffset imm5)) rd.reg

/-- Thumb LDR immediate offset (R461). -/
def execThumbLdrImm (imm5 : BitVec 5) (rb rd : LowReg) (s : State) : Out :=
  s.loadWordAt (s.reg rb.reg + wordOffset imm5) rd

/-- Thumb STRB immediate offset (R462). -/
def execThumbStrbImm (imm5 : BitVec 5) (rb rd : LowReg) (s : State) : Out :=
  s.storeRegTo .byte (s.placeAt (s.reg rb.reg + imm5.zeroExtend 32)) rd.reg

/-- Thumb LDRB immediate offset (R463). -/
def execThumbLdrbImm (imm5 : BitVec 5) (rb rd : LowReg) (s : State) : Out :=
  s.loadTo .byte (s.placeAt (s.reg rb.reg + imm5.zeroExtend 32)) id rd.reg

/-- Thumb STRH immediate offset (R464). -/
def execThumbStrhImm (imm5 : BitVec 5) (rb rd : LowReg) (s : State) : Out :=
  s.storeHalf (s.placeAt (s.reg rb.reg + (imm5 ++ 0#1).zeroExtend 32)) rd.reg

/-- Thumb LDRH immediate offset (R465). -/
def execThumbLdrhImm (imm5 : BitVec 5) (rb rd : LowReg) (s : State) : Out :=
  s.loadHalfTo (s.placeAt (s.reg rb.reg + (imm5 ++ 0#1).zeroExtend 32)) id rd.reg

/-- Thumb STR SP-relative (R466). -/
def execThumbStrSp (rd : LowReg) (word8 : BitVec 8) (s : State) : Out :=
  s.storeRegTo .word (s.placeAt (s.reg 13 + wordOffset word8)) rd.reg

/-- Thumb LDR SP-relative (R467). -/
def execThumbLdrSp (rd : LowReg) (word8 : BitVec 8) (s : State) : Out :=
  s.loadWordAt (s.reg 13 + wordOffset word8) rd

end Sys2Proof.Machine
end

