-- ==== Sys2Proof/Machine/Undefined.lean ====
section
/-! DEFINITION. The undefined instruction spaces (R196, R206, R485, R510). -/

namespace Sys2Proof.Machine

/-- Bits [27:25] = 011 with bit 4 set (R196 a). -/
def execArmUndefMedia (c : Cond) (_hi : BitVec 20) (_lo : BitVec 4) (s : State) : Out :=
  s.conditional c none (fun s => .next s.takeUndefined)

/-- Bits [27:20] = 00110x00 (R196 b). -/
def execArmUndefMsr (c : Cond) (_r : Bool) (_lo : BitVec 20) (s : State) : Out :=
  s.conditional c none (fun s => .next s.takeUndefined)

/-- The unallocated words of 0xB000 to 0xBFFF (R206). -/
def execThumbUndefB (_lo : BitVec 12) (s : State) : Out :=
  .next s.takeUndefined

/-- 0xDE00 to 0xDEFF (R206). -/
def execThumbUndefDe (_lo : BitVec 8) (s : State) : Out :=
  .next s.takeUndefined

/-- 0xE800 to 0xEFFF (R206). -/
def execThumbUndefE8 (_lo : BitVec 11) (s : State) : Out :=
  .next s.takeUndefined

end Sys2Proof.Machine
end

