-- ==== Sys2Proof/Machine/Dispatch.lean ====
section
/-! DEFINITION. One arm a constructor: each instruction's meaning. -/

namespace Sys2Proof.Machine

/-- What an instruction does: one direct call of its meaning. -/
def exec (i : Instr) (s : State) : Host.Outcome State Fault Refusal :=
  match i with
  -- ARM data processing
  | .armAnd c sf rn rd op2 => Sys2Proof.Machine.execArmAnd c sf rn rd op2 s
  | .armEor c sf rn rd op2 => Sys2Proof.Machine.execArmEor c sf rn rd op2 s
  | .armSub c sf rn rd op2 => Sys2Proof.Machine.execArmSub c sf rn rd op2 s
  | .armRsb c sf rn rd op2 => Sys2Proof.Machine.execArmRsb c sf rn rd op2 s
  | .armAdd c sf rn rd op2 => Sys2Proof.Machine.execArmAdd c sf rn rd op2 s
  | .armAdc c sf rn rd op2 => Sys2Proof.Machine.execArmAdc c sf rn rd op2 s
  | .armSbc c sf rn rd op2 => Sys2Proof.Machine.execArmSbc c sf rn rd op2 s
  | .armRsc c sf rn rd op2 => Sys2Proof.Machine.execArmRsc c sf rn rd op2 s
  | .armTst c rn op2 => Sys2Proof.Machine.execArmTst c rn op2 s
  | .armTeq c rn op2 => Sys2Proof.Machine.execArmTeq c rn op2 s
  | .armCmp c rn op2 => Sys2Proof.Machine.execArmCmp c rn op2 s
  | .armCmn c rn op2 => Sys2Proof.Machine.execArmCmn c rn op2 s
  | .armOrr c sf rn rd op2 => Sys2Proof.Machine.execArmOrr c sf rn rd op2 s
  | .armMov c sf rd op2 => Sys2Proof.Machine.execArmMov c sf rd op2 s
  | .armBic c sf rn rd op2 => Sys2Proof.Machine.execArmBic c sf rn rd op2 s
  | .armMvn c sf rd op2 => Sys2Proof.Machine.execArmMvn c sf rd op2 s
  -- ARM multiply
  | .armMul c sf rd rs rm => Sys2Proof.Machine.execArmMul c sf rd rs rm s
  | .armMla c sf rd rn rs rm => Sys2Proof.Machine.execArmMla c sf rd rn rs rm s
  | .armUmull c sf rdHi rdLo rs rm => Sys2Proof.Machine.execArmUmull c sf rdHi rdLo rs rm s
  | .armUmlal c sf rdHi rdLo rs rm => Sys2Proof.Machine.execArmUmlal c sf rdHi rdLo rs rm s
  | .armSmull c sf rdHi rdLo rs rm => Sys2Proof.Machine.execArmSmull c sf rdHi rdLo rs rm s
  | .armSmlal c sf rdHi rdLo rs rm => Sys2Proof.Machine.execArmSmlal c sf rdHi rdLo rs rm s
  -- ARM swap
  | .armSwp c rn rd rm => Sys2Proof.Machine.execArmSwp c rn rd rm s
  | .armSwpb c rn rd rm => Sys2Proof.Machine.execArmSwpb c rn rd rm s
  -- ARM status registers
  | .armMrs c spsr rd => Sys2Proof.Machine.execArmMrs c spsr rd s
  | .armMsrReg c spsr mask rm => Sys2Proof.Machine.execArmMsrReg c spsr mask rm s
  | .armMsrImm c spsr mask rotate imm8 => Sys2Proof.Machine.execArmMsrImm c spsr mask rotate imm8 s
  -- ARM branches
  | .armBx c rm => Sys2Proof.Machine.execArmBx c rm s
  | .armB c offset => Sys2Proof.Machine.execArmB c offset s
  | .armBl c offset => Sys2Proof.Machine.execArmBl c offset s
  -- ARM single transfers
  | .armLdr c index up rn rd off => Sys2Proof.Machine.execArmLdr c index up rn rd off s
  | .armStr c index up rn rd off => Sys2Proof.Machine.execArmStr c index up rn rd off s
  | .armLdrb c index up rn rd off => Sys2Proof.Machine.execArmLdrb c index up rn rd off s
  | .armStrb c index up rn rd off => Sys2Proof.Machine.execArmStrb c index up rn rd off s
  | .armLdrt c up rn rd off => Sys2Proof.Machine.execArmLdrt c up rn rd off s
  | .armStrt c up rn rd off => Sys2Proof.Machine.execArmStrt c up rn rd off s
  | .armLdrbt c up rn rd off => Sys2Proof.Machine.execArmLdrbt c up rn rd off s
  | .armStrbt c up rn rd off => Sys2Proof.Machine.execArmStrbt c up rn rd off s
  | .armStrh c index up rn rd off => Sys2Proof.Machine.execArmStrh c index up rn rd off s
  | .armLdrh c index up rn rd off => Sys2Proof.Machine.execArmLdrh c index up rn rd off s
  | .armLdrsb c index up rn rd off => Sys2Proof.Machine.execArmLdrsb c index up rn rd off s
  | .armLdrsh c index up rn rd off => Sys2Proof.Machine.execArmLdrsh c index up rn rd off s
  -- ARM block transfers
  | .armLdmia c sf wb rn list => Sys2Proof.Machine.execArmLdmia c sf wb rn list s
  | .armLdmib c sf wb rn list => Sys2Proof.Machine.execArmLdmib c sf wb rn list s
  | .armLdmda c sf wb rn list => Sys2Proof.Machine.execArmLdmda c sf wb rn list s
  | .armLdmdb c sf wb rn list => Sys2Proof.Machine.execArmLdmdb c sf wb rn list s
  | .armStmia c sf wb rn list => Sys2Proof.Machine.execArmStmia c sf wb rn list s
  | .armStmib c sf wb rn list => Sys2Proof.Machine.execArmStmib c sf wb rn list s
  | .armStmda c sf wb rn list => Sys2Proof.Machine.execArmStmda c sf wb rn list s
  | .armStmdb c sf wb rn list => Sys2Proof.Machine.execArmStmdb c sf wb rn list s
  -- ARM SWI
  | .armSwi c imm => Sys2Proof.Machine.execArmSwi c imm s
  -- ARM coprocessor
  | .armCdp c op1 crn crd cp op2 crm => Sys2Proof.Machine.execArmCdp c op1 crn crd cp op2 crm s
  | .armLdc c p up n wb rn crd cp off => Sys2Proof.Machine.execArmLdc c p up n wb rn crd cp off s
  | .armStc c p up n wb rn crd cp off => Sys2Proof.Machine.execArmStc c p up n wb rn crd cp off s
  | .armMcr c op1 crn rd cp op2 crm => Sys2Proof.Machine.execArmMcr c op1 crn rd cp op2 crm s
  | .armMrc c op1 crn rd cp op2 crm => Sys2Proof.Machine.execArmMrc c op1 crn rd cp op2 crm s
  -- ARM undefined space
  | .armUndefMedia c hi lo => Sys2Proof.Machine.execArmUndefMedia c hi lo s
  | .armUndefMsr c r lo => Sys2Proof.Machine.execArmUndefMsr c r lo s
  -- Thumb
  | .thumbLslImm imm5 rs rd => Sys2Proof.Machine.execThumbLslImm imm5 rs rd s
  | .thumbLsrImm imm5 rs rd => Sys2Proof.Machine.execThumbLsrImm imm5 rs rd s
  | .thumbAsrImm imm5 rs rd => Sys2Proof.Machine.execThumbAsrImm imm5 rs rd s
  | .thumbAddReg rn rs rd => Sys2Proof.Machine.execThumbAddReg rn rs rd s
  | .thumbSubReg rn rs rd => Sys2Proof.Machine.execThumbSubReg rn rs rd s
  | .thumbAddImm3 imm3 rs rd => Sys2Proof.Machine.execThumbAddImm3 imm3 rs rd s
  | .thumbSubImm3 imm3 rs rd => Sys2Proof.Machine.execThumbSubImm3 imm3 rs rd s
  | .thumbMovImm rd imm8 => Sys2Proof.Machine.execThumbMovImm rd imm8 s
  | .thumbCmpImm rd imm8 => Sys2Proof.Machine.execThumbCmpImm rd imm8 s
  | .thumbAddImm8 rd imm8 => Sys2Proof.Machine.execThumbAddImm8 rd imm8 s
  | .thumbSubImm8 rd imm8 => Sys2Proof.Machine.execThumbSubImm8 rd imm8 s
  | .thumbAnd rs rd => Sys2Proof.Machine.execThumbAnd rs rd s
  | .thumbEor rs rd => Sys2Proof.Machine.execThumbEor rs rd s
  | .thumbLslReg rs rd => Sys2Proof.Machine.execThumbLslReg rs rd s
  | .thumbLsrReg rs rd => Sys2Proof.Machine.execThumbLsrReg rs rd s
  | .thumbAsrReg rs rd => Sys2Proof.Machine.execThumbAsrReg rs rd s
  | .thumbAdc rs rd => Sys2Proof.Machine.execThumbAdc rs rd s
  | .thumbSbc rs rd => Sys2Proof.Machine.execThumbSbc rs rd s
  | .thumbRor rs rd => Sys2Proof.Machine.execThumbRor rs rd s
  | .thumbTst rs rd => Sys2Proof.Machine.execThumbTst rs rd s
  | .thumbNeg rs rd => Sys2Proof.Machine.execThumbNeg rs rd s
  | .thumbCmpReg rs rd => Sys2Proof.Machine.execThumbCmpReg rs rd s
  | .thumbCmn rs rd => Sys2Proof.Machine.execThumbCmn rs rd s
  | .thumbOrr rs rd => Sys2Proof.Machine.execThumbOrr rs rd s
  | .thumbMul rs rd => Sys2Proof.Machine.execThumbMul rs rd s
  | .thumbBic rs rd => Sys2Proof.Machine.execThumbBic rs rd s
  | .thumbMvn rs rd => Sys2Proof.Machine.execThumbMvn rs rd s
  | .thumbAddHi rm rd => Sys2Proof.Machine.execThumbAddHi rm rd s
  | .thumbCmpHi rm rd => Sys2Proof.Machine.execThumbCmpHi rm rd s
  | .thumbMovHi rm rd => Sys2Proof.Machine.execThumbMovHi rm rd s
  | .thumbBx rm => Sys2Proof.Machine.execThumbBx rm s
  | .thumbLdrPc rd word8 => Sys2Proof.Machine.execThumbLdrPc rd word8 s
  | .thumbStrReg ro rb rd => Sys2Proof.Machine.execThumbStrReg ro rb rd s
  | .thumbStrbReg ro rb rd => Sys2Proof.Machine.execThumbStrbReg ro rb rd s
  | .thumbLdrReg ro rb rd => Sys2Proof.Machine.execThumbLdrReg ro rb rd s
  | .thumbLdrbReg ro rb rd => Sys2Proof.Machine.execThumbLdrbReg ro rb rd s
  | .thumbStrhReg ro rb rd => Sys2Proof.Machine.execThumbStrhReg ro rb rd s
  | .thumbLdrsbReg ro rb rd => Sys2Proof.Machine.execThumbLdrsbReg ro rb rd s
  | .thumbLdrhReg ro rb rd => Sys2Proof.Machine.execThumbLdrhReg ro rb rd s
  | .thumbLdrshReg ro rb rd => Sys2Proof.Machine.execThumbLdrshReg ro rb rd s
  | .thumbStrImm imm5 rb rd => Sys2Proof.Machine.execThumbStrImm imm5 rb rd s
  | .thumbLdrImm imm5 rb rd => Sys2Proof.Machine.execThumbLdrImm imm5 rb rd s
  | .thumbStrbImm imm5 rb rd => Sys2Proof.Machine.execThumbStrbImm imm5 rb rd s
  | .thumbLdrbImm imm5 rb rd => Sys2Proof.Machine.execThumbLdrbImm imm5 rb rd s
  | .thumbStrhImm imm5 rb rd => Sys2Proof.Machine.execThumbStrhImm imm5 rb rd s
  | .thumbLdrhImm imm5 rb rd => Sys2Proof.Machine.execThumbLdrhImm imm5 rb rd s
  | .thumbStrSp rd word8 => Sys2Proof.Machine.execThumbStrSp rd word8 s
  | .thumbLdrSp rd word8 => Sys2Proof.Machine.execThumbLdrSp rd word8 s
  | .thumbAddPc rd word8 => Sys2Proof.Machine.execThumbAddPc rd word8 s
  | .thumbAddSp rd word8 => Sys2Proof.Machine.execThumbAddSp rd word8 s
  | .thumbIncSp word7 => Sys2Proof.Machine.execThumbIncSp word7 s
  | .thumbDecSp word7 => Sys2Proof.Machine.execThumbDecSp word7 s
  | .thumbPush lr list => Sys2Proof.Machine.execThumbPush lr list s
  | .thumbPop pc list => Sys2Proof.Machine.execThumbPop pc list s
  | .thumbStmia rb list => Sys2Proof.Machine.execThumbStmia rb list s
  | .thumbLdmia rb list => Sys2Proof.Machine.execThumbLdmia rb list s
  | .thumbBCond c offset => Sys2Proof.Machine.execThumbBCond c offset s
  | .thumbSwi imm => Sys2Proof.Machine.execThumbSwi imm s
  | .thumbB offset => Sys2Proof.Machine.execThumbB offset s
  | .thumbBlHigh offset => Sys2Proof.Machine.execThumbBlHigh offset s
  | .thumbBlLow offset => Sys2Proof.Machine.execThumbBlLow offset s
  -- Thumb undefined space
  | .thumbUndefB lo => Sys2Proof.Machine.execThumbUndefB lo s
  | .thumbUndefDe lo => Sys2Proof.Machine.execThumbUndefDe lo s
  | .thumbUndefE8 lo => Sys2Proof.Machine.execThumbUndefE8 lo s

end Sys2Proof.Machine
end

