-- ==== Sys2Proof/Machine/Cycle.lean ====
section
/-! DEFINITION. One instruction boundary and the instruction after it (R506): stuck states, debug entry,
interrupts, the fetch, Prefetch Abort, breakpoints, decoding, execution. -/

namespace Sys2Proof.Machine

/-! ## Debug entry -/

/-- DBGACK (R65, R545): forced LOW with DBGEN LOW. -/
def State.dbgack (s : State) : Bool := s.pins.dbgen && (s.dbg.ack || s.dbg.ctl.getLsbD 0)

/-- IFEN (R65, R523): with DBGEN LOW interrupts pass. -/
def State.ifen (s : State) : Bool := !s.dbgack && !(s.pins.dbgen && s.dbg.ctl.getLsbD 2)

/-- DBGRQ as it is applied to the core: the pin ORed with the synchronised bit of the Debug Control Register
(R65, R550). -/
def State.dbgrq (s : State) : Bool := s.pins.dbgrq || s.dbg.requestLatch

/-- A debug request in halt mode (R550). -/
def State.debugRequested (s : State) : Bool := s.pins.dbgen && !s.dbg.monitor && s.dbgrq

/-- Entering debug state (R549): the pipeline is flushed and the PC moves on by a number of instruction
slots, of which one belongs to the first instruction executed there (R557); past the top of the address space
it counts on from 0 (DESIGN CHOICE, log 36). -/
def State.enterDebug (cause : DebugCause) (slots : Nat) (s : State) : State :=
  { s with
    pc := s.pc + s.len * BitVec.ofNat 32 (slots - 1)
    pipe := []
    offTop := false
    dbg := { s.dbg with
      ack := true, cause := some cause, pending := false, pendingAbort := false, bit33 := false, held := none
      discard := 0, firstCapture := true } }

/-! ## Interrupts -/

/-- FIQ is asserted and not masked (R520). -/
def State.fiqPending (s : State) : Bool := s.pins.fiq && !s.cpsr.getLsbD 6 && s.ifen

/-- IRQ is asserted and not masked (R521). -/
def State.irqPending (s : State) : Bool := s.pins.irq && !s.cpsr.getLsbD 7 && s.ifen

/-- The interrupt taken at this boundary, if one is (R506). -/
def State.interrupt (s : State) : Option State :=
  if s.fiqPending then some s.takeFiq else if s.irqPending then some s.takeIrq else none

/-- The core's side of a remembered watchpoint whose instruction took a Data Abort: debug entry waits until
the instruction at the abort vector has been fetched (R547). -/
def State.fetchAbortVector (s : State) : State :=
  if s.dbg.pending && s.dbg.pendingAbort then (s.fetch s.pc).2 else s

/-- Debug entry for a remembered watchpoint or a request: the abort vector is fetched and a pending
interrupt's entry is made first (R547, R551, R558), and "with exception" the PC moves on by one slot less
(R557). Of both a watchpoint and a request, the watchpoint is the cause; with a Data Abort and a pending FIQ
both entries are made and debug state is entered in FIQ mode (DESIGN CHOICE, log 31). -/
def State.enterDebugPending (s : State) : State :=
  let cause : DebugCause := if s.dbg.pending then .watchpoint else .request
  let s := s.fetchAbortVector
  match s.interrupt with
  | some s' => s'.enterDebug cause 3
  | none => s.enterDebug cause (if s.dbg.pending && !s.dbg.pendingAbort then 4 else 3)

/-! ## Execution -/

/-- The code of a fetched word in the current state (R209). -/
def State.code (s : State) (w : Word) : Code :=
  if s.thumb then .thumb (w.extractLsb' 0 16) else .arm w

/-- Whether a word's condition field lets it execute: always in Thumb state and for b1111. -/
def State.wordPasses (s : State) (w : Word) : Bool :=
  s.thumb || match Cond.ofBits (w.extractLsb' 28 4) with
    | some c => s.passes c
    | none => true

/-- Whether a register is banked in the current mode (R586). -/
def State.isBanked (s : State) (i : Reg) : Bool :=
  if s.mode = .fiq then i.toNat ≥ 8 && i.toNat ≤ 14 else i.toNat ≥ 13 && i.toNat ≤ 14

/-- Executes a decoded instruction: after a User-bank transfer it may name no banked register (R586). -/
def State.runInstr (w : Word) (i : Instr) (s : State) : Out :=
  if s.userBank && s.wordPasses w && i.regs.any s.isBanked then .refused .bankedAfterUserTransfer
  else exec i { s with userBank := false }

/-- Executes the instruction a word is: rejected words are refused when their condition passes (R197,
R198). -/
def State.execute (w : Word) (s : State) : Out :=
  match decode (s.code w) with
  | .error e => if s.wordPasses w then .refused (.undecoded e) else .next { s.advance with userBank := false }
  | .ok i => s.runInstr w i

/-- A breakpointed instruction (R546): debug state in halt mode, a Prefetch Abort in monitor mode (R552),
where a failed condition leaves open which of the abort and the advance happens (N45 asks the like). A mark
made while DBGEN was HIGH stands when DBGEN has fallen (R545; DESIGN CHOICE, log 31). -/
def State.breakpointed (w : Word) (s : State) : State :=
  if s.dbg.monitor then
    if s.wordPasses w then s.takePrefetchAbort debugAbort
    else
      let (f, s) := s.draw
      if f.getLsbD 0 then s.takePrefetchAbort debugAbort else { s.advance with userBank := false }
  else s.enterDebug .breakpoint 4

/-- The instruction at the head of the pipeline (R506, R512, R546). -/
def State.runHead (f : Fetched) (s : State) : Out :=
  match f.got with
  | .stop r => .refused r
  | .abort i => .next (s.takePrefetchAbort i)
  | .ok w => if f.breakpoint then .next (s.breakpointed w) else s.execute w

/-- Fetches as far ahead as the pipeline reaches, then runs its head (R73). -/
def State.runNext (s : State) : Out :=
  let s := s.prefetch
  match s.pipe with
  | [] => .next s
  | f :: _ => s.runHead f

/-- The fault a stuck machine answers with (R33, R35, R574). -/
def Stuck.fault : Stuck → Fault
  | .illegalMode => .illegalMode
  | .stateBitChanged => .stateBitChanged

/-- What the core does at one instruction boundary (R506, R558). The model's choices: a debug request comes
before a breakpoint at the head of the pipeline, and debug state and a remembered watchpoint outlast a fall
of DBGEN (log 31); past the top of the address space it enters debug state, or else refuses before it looks at
interrupts (log 36); an interrupt or a debug request is taken before the instructions from pc on are fetched
(log 12). -/
def State.coreStep (s : State) : Out :=
  match s.stuck with
  | some k => .fault k.fault
  | none =>
    if s.dbg.ack then .next s
    else if (s.pins.dbgen && s.dbg.pending) || s.debugRequested then .next s.enterDebugPending
    else if s.offTop then .refused .ranOffTop
    else
      match s.interrupt with
      | some s => .next s
      | none => s.runNext

end Sys2Proof.Machine
end

