-- ==== Sys2Proof/Machine/Environment.lean ====
section
/-! DEFINITION. What happens from outside between two instructions: the reset input (R570), the bus and
its other masters, the pins, the debugger through the scan chains (R549 to R556). -/

namespace Sys2Proof.Machine

/-! ## Reset -/

/-- The buffered writes when HRESETn falls: each has reached memory or not (R570, U45). One that has stands in
memory without a transfer of its own in `MemSys.bus` (DESIGN CHOICE, log 39). -/
def MemSys.resetBuffer (big : Bool) : List BufferedWrite → MemSys → MemSys
  | [], ms => ms
  | e :: rest, ms =>
    let (f, ms) := ms.draw
    MemSys.resetBuffer big rest
      (if f.getLsbD 0 then ms.taken big e.size e.pa e.data else ms)

/-- The memory system after HRESETn (R570): buffer, cache and TLB flushed; memory and the test registers
keep their content. -/
def MemSys.warmReset (big : Bool) (ms : MemSys) : MemSys :=
  ((MemSys.resetBuffer big ms.wbuf { ms with wbuf := [] }).invalidateCache).invalidateTlb

/-- The instruction reads the core makes while HRESETn is LOW, from an address on (R571): their data, and any
ERROR, are ignored. -/
def MemSys.resetReads (priv : Bool) : Nat → Word → MemSys → MemSys
  | 0, _, ms => ms
  | n + 1, pa, ms =>
    MemSys.resetReads priv n (pa + 4)
      (ms.transfer ⟨pa, .word, none, some (0#2 ++ flagBit priv ++ 0#1), false, .single,
        .nonseq⟩).2

/-- HRESETn LOW and HIGH again (R570): r14_svc and SPSR_svc any value, everything not named kept; the only
way out of a stuck state (R574). The debug logic is not reset by HRESETn (R573), but of debug state a word that
waits for RESTART, a remembered bit 33 and a remembered watchpoint are dropped (DESIGN CHOICE, log 39). -/
def State.warmReset (vinithi : Bool) (first : Word) (reads : Nat) (s : State) : State :=
  let (lr, s) := s.draw
  let (saved, s) := s.draw
  let s := s.setBankReg .svc 14 lr
  { s with
    spsrSvc := saved
    cpsr := s.cpsr.extractLsb' 8 24 ++ 0xd3#8
    cp15 := { s.cp15 with
      control := 0#18 ++ flagBit vinithi ++ 0x0070#13
      pid := 0
      testOn := false }
    memsys := (s.memsys.warmReset s.platform.bigEndian).resetReads s.privileged reads (first &&& 0xfffffffc)
    pc := if vinithi then 0xffff0000 else 0
    pipe := []
    userBank := false
    offTop := false
    stuck := none
    pins := { s.pins with vinithi := vinithi }
    dbg := { s.dbg with
      pending := false, pendingAbort := false, sysSpeed := false, bit33 := false, held := none } }

/-- One of two values: what an abandoned instruction made of one, or what it was. -/
def pick {α : Type} (happened : Bool) (after before : α) : α := if happened then after else before

/-- CP15 with some of an instruction's effects (R570); what the reset input sets is left to it. -/
def Cp15.pickEffects (m : BitVec 5) (before after : Cp15) : Cp15 :=
  { before with
    ttb := pick (m.getLsbD 0) after.ttb before.ttb
    dacr := pick (m.getLsbD 1) after.dacr before.dacr
    fsr := pick (m.getLsbD 2) after.fsr before.fsr
    far := pick (m.getLsbD 3) after.far before.far
    procId := pick (m.getLsbD 4) after.procId before.procId
    controlReads := after.controlReads }

/-- CP14 with some of an instruction's effects. -/
def Cp14.pickEffects (m : BitVec 5) (before after : Cp14) : Cp14 where
  dccWrite := pick (m.getLsbD 0) after.dccWrite before.dccWrite
  dccRead := pick (m.getLsbD 1) after.dccRead before.dccRead
  w := pick (m.getLsbD 2) after.w before.w
  r := pick (m.getLsbD 3) after.r before.r
  dbgAbt := pick (m.getLsbD 4) after.dbgAbt before.dbgAbt

/-- The bytes of an instruction's stores that have reached memory. -/
def Memory.takeBytes (after : Memory) : List Word → Memory → Memory
  | [], m => m
  | a :: rest, m => Memory.takeBytes after rest (m.set a.toNat (after.get a.toNat))

/-- The memory system with some of an instruction's effects: the test registers, and bytes of memory; the
buffered writes of before wait as they did, the cache and the TLB are flushed by the reset that follows. -/
def MemSys.pickEffects (big : Bool) (m : BitVec 12) (bytes : List Word) (before after : MemSys) : MemSys :=
  { before with
    mem := (after.drain big).mem.takeBytes bytes before.mem
    cacheVictim := Vector.ofFn fun i => pick (m.getLsbD i.val) after.cacheVictim[i] before.cacheVictim[i]
    cacheBase := pick (m.getLsbD 4) after.cacheBase before.cacheBase
    cacheStep := pick (m.getLsbD 5) after.cacheStep before.cacheStep
    c15c := pick (m.getLsbD 6) after.c15c before.c15c
    tlbVictim := pick (m.getLsbD 7) after.tlbVictim before.tlbVictim
    tlbBase := pick (m.getLsbD 8) after.tlbBase before.tlbBase
    tlbPreserve := pick (m.getLsbD 9) after.tlbPreserve before.tlbPreserve
    ram2Pointer := pick (m.getLsbD 10) after.ram2Pointer before.ram2Pointer
    c15m := pick (m.getLsbD 11) after.c15m before.c15m
    answers := after.answers
    bus := after.bus
    draws := after.draws }

/-- The state when Reset abandons the instruction that leads from one state to another: any subset of its
register and memory effects has happened (R570). -/
def State.abandon (a : Abandoned) (before after : State) : State :=
  { before with
    regs := Vector.ofFn fun k => pick (a.regs.getLsbD k.val) after.regs[k] before.regs[k]
    cpsr := withFlags before.cpsr (pick (a.flags.getLsbD 3) after.flagN before.flagN)
      (pick (a.flags.getLsbD 2) after.flagZ before.flagZ)
      (pick (a.flags.getLsbD 1) after.flagC before.flagC)
      (pick (a.flags.getLsbD 0) after.flagV before.flagV)
    spsrFiq := pick (a.spsrs.getLsbD 0) after.spsrFiq before.spsrFiq
    spsrIrq := pick (a.spsrs.getLsbD 1) after.spsrIrq before.spsrIrq
    spsrSvc := pick (a.spsrs.getLsbD 2) after.spsrSvc before.spsrSvc
    spsrAbt := pick (a.spsrs.getLsbD 3) after.spsrAbt before.spsrAbt
    spsrUnd := pick (a.spsrs.getLsbD 4) after.spsrUnd before.spsrUnd
    cp15 := before.cp15.pickEffects a.cp15 after.cp15
    cp14 := before.cp14.pickEffects a.cp14 after.cp14
    memsys := before.memsys.pickEffects before.platform.bigEndian a.tests a.bytes after.memsys
    coproc := after.coproc
    calls := after.calls.take (before.calls.length + a.calls)
    draws := after.draws }

/-- The state HRESETn finds (R570): between two instructions, or in the middle of the next one, where the
core would run one. -/
def State.abandoned (amid : Option Abandoned) (s : State) : State :=
  match amid with
  | none => s
  | some a =>
    match s.coreStep with
    | .next t => s.abandon a t
    | _ => s

/-! ## Scan chain 2: the EmbeddedICE-RT registers (R64) -/

/-- The Debug Status Register as it is read (R66): DBGMOE, TBIT, TRANS[1], IFEN, DBGRQ and DBGACK are the
signals, whatever was written to their bits, and bits 11 to 5 are as they were written (DESIGN CHOICE,
log 31). TRANS[1] is 0 in debug state, where the core drives internal cycles (R549), else any value. -/
def State.debugStatus (free : Word) (s : State) : BitVec 13 :=
  flagBit (s.dbg.cause == some .request) ++ s.dbg.status.extractLsb' 5 7 ++ flagBit s.thumb ++
    flagBit (!s.dbg.ack && free.getLsbD 0) ++ flagBit s.ifen ++
    flagBit s.dbgrq ++ flagBit s.dbgack

/-- A register of a watchpoint unit, by the low three bits of its address (R64). -/
def WatchUnit.readReg (u : WatchUnit) (addr : BitVec 3) : Option Word :=
  match addr with
  | 0 => some u.addrValue
  | 1 => some u.addrMask
  | 2 => some u.dataValue
  | 3 => some u.dataMask
  | 4 => some (u.ctlValue.zeroExtend 32)
  | 5 => some (u.ctlMask.zeroExtend 32)
  | _ => none

/-- A register of a watchpoint unit written (R64). -/
def WatchUnit.writeReg (u : WatchUnit) (addr : BitVec 3) (v : Word) : Option WatchUnit :=
  match addr with
  | 0 => some { u with addrValue := v }
  | 1 => some { u with addrMask := v }
  | 2 => some { u with dataValue := v }
  | 3 => some { u with dataMask := v }
  | 4 => some { u with ctlValue := v.extractLsb' 0 9 }
  | 5 => some { u with ctlMask := v.extractLsb' 0 8 }
  | _ => none

/-- Whether a unit is programmed to compare SIZE with its reserved value b11 (R67, U31). -/
def WatchUnit.reservedSize (u : WatchUnit) : Bool :=
  u.ctlValue.extractLsb' 1 2 == 3#2 && u.ctlMask.extractLsb' 1 2 != 3#2

/-- A register of a watchpoint unit written through scan chain 2: one that is not there and the reserved SIZE
are refused. -/
def WatchUnit.program (u : WatchUnit) (addr : BitVec 3) (v : Word) : Option WatchUnit :=
  match u.writeReg addr v with
  | some u => if u.reservedSize && (addr == 4#3 || addr == 5#3) then none else some u
  | none => none

/-- The DCC Control Register as a scan reads it: version b0100 (R61). -/
def Cp14.scanControl (cp : Cp14) : Word := 4#4 ++ 0#26 ++ flagBit cp.w ++ flagBit cp.r

/-- The result of a scan read kept. -/
def State.scanned (v : Word) (s : State) : State := { s with dbg := { s.dbg with scanResult := v } }

/-- A read through scan chain 2 (R64, R553): reading the DCC data clears W. -/
def State.scan2Read (addr : BitVec 5) (s : State) : Out :=
  match addr.extractLsb' 3 2, addr.extractLsb' 0 3 with
  | 0, 0 => .next (s.scanned (s.dbg.ctl.zeroExtend 32))
  | 0, 1 =>
    let (f, s) := s.draw
    .next (s.scanned ((s.debugStatus f).zeroExtend 32))
  | 0, 4 => .next (s.scanned s.cp14.scanControl)
  | 0, 5 => .next (State.scanned s.cp14.dccWrite { s with cp14 := { s.cp14 with w := false } })
  | 1, r =>
    match s.dbg.unit0.readReg r with
    | some v => .next (s.scanned v)
    | none => .refused .debugUndefined
  | 2, r =>
    match s.dbg.unit1.readReg r with
    | some v => .next (s.scanned v)
    | none => .refused .debugUndefined
  | _, _ => .refused .debugUndefined

/-- A write through scan chain 2 (R64, R553): the DCC control's R is cleared by a value whose bit 0 is 0, and
W is kept (DESIGN CHOICE, log 31); writing the DCC data sets R; bit 3 of the control stays 0 (R65); writing
unit 1's control value clears CHAINOUT (R548). -/
def State.scan2Write (addr : BitVec 5) (v : Word) (s : State) : Out :=
  match addr.extractLsb' 3 2, addr.extractLsb' 0 3 with
  | 0, 0 => .next { s with dbg := { s.dbg with ctl := v.extractLsb' 0 6 &&& 0b110111 } }
  | 0, 1 => .next { s with dbg := { s.dbg with status := v.extractLsb' 0 13 } }
  | 0, 4 => .next { s with cp14 := { s.cp14 with r := s.cp14.r && v.getLsbD 0 } }
  | 0, 5 => .next { s with cp14 := { s.cp14 with dccRead := v, r := true } }
  | 1, r =>
    match s.dbg.unit0.program r v with
    | some u => .next { s with dbg := { s.dbg with unit0 := u } }
    | none => .refused .debugUndefined
  | 2, r =>
    match s.dbg.unit1.program r v with
    | some u =>
      .next { s with dbg := { s.dbg with unit1 := u, chainOut := s.dbg.chainOut && r != 4#3 } }
    | none => .refused .debugUndefined
  | _, _ => .refused .debugUndefined

/-! ## Scan chain 15: CP15 (R556) -/

/-- The CP15 operation an encoding of Table 9-3 names: CRn, CRm, opcode_2, and which directions exist. -/
def scan15Op (code : BitVec 4) : Option (BitVec 4 × BitVec 4 × BitVec 3 × Bool × Bool) :=
  match code with
  | 0b0000 => some (0, 0, 0, true, false)
  | 0b0001 => some (1, 0, 0, true, true)
  | 0b0010 => some (2, 0, 0, true, true)
  | 0b0011 => some (3, 0, 0, true, true)
  | 0b0100 => some (5, 0, 0, true, true)
  | 0b0101 => some (6, 0, 0, true, true)
  | 0b0110 => some (13, 0, 0, true, true)
  | 0b0111 => some (13, 0, 1, true, true)
  | 0b1000 => some (7, 7, 0, false, true)
  | 0b1001 => some (8, 7, 0, false, true)
  | 0b1010 => some (8, 7, 1, false, true)
  | _ => none

/-- An operation through scan chain 15: the effect of the corresponding MCR or MRC (R556). -/
def State.scan15 (write : Bool) (code : BitVec 4) (v : Word) (s : State) : Out :=
  match scan15Op code with
  | none => .refused .debugUndefined
  | some (crn, crm, op2, readable, writable) =>
    if write then
      if writable then
        match s.cp15Write 0 crn crm op2 v with
        | .ok s => .next s
        | .error r => .refused r
      else .refused .debugUndefined
    else if readable then
      match s.cp15Read 0 crn crm op2 with
      | .ok (v, s) => .next (s.scanned v)
      | .error r => .refused r
    else .refused .debugUndefined

/-! ## Scan chain 1: instructions in debug state (R549) -/

/-- The loads and stores, which alone may run at system speed (R549). -/
def Instr.transfers : Instr → Bool
  | .armLdr .. | .armStr .. | .armLdrb .. | .armStrb .. | .armLdrt .. | .armStrt .. | .armLdrbt ..
  | .armStrbt .. | .armStrh .. | .armLdrh .. | .armLdrsb .. | .armLdrsh .. | .armLdmia ..
  | .armLdmib .. | .armLdmda .. | .armLdmdb .. | .armStmia .. | .armStmib .. | .armStmda ..
  | .armStmdb .. | .thumbLdrPc .. | .thumbStrReg .. | .thumbStrbReg .. | .thumbLdrReg ..
  | .thumbLdrbReg .. | .thumbStrhReg .. | .thumbLdrsbReg .. | .thumbLdrhReg .. | .thumbLdrshReg ..
  | .thumbStrImm .. | .thumbLdrImm .. | .thumbStrbImm .. | .thumbLdrbImm .. | .thumbStrhImm ..
  | .thumbLdrhImm .. | .thumbStrSp .. | .thumbLdrSp .. | .thumbPush .. | .thumbPop ..
  | .thumbStmia .. | .thumbLdmia .. => true
  | _ => false

/-- The instructions that may not be scanned in: exceptions, coprocessor instructions and swaps (R549). -/
def Instr.notScannable : Instr → Bool
  | .armSwi .. | .armCdp .. | .armLdc .. | .armStc .. | .armMcr .. | .armMrc .. | .armUndefMedia ..
  | .armUndefMsr .. | .armSwp .. | .armSwpb .. | .thumbSwi .. | .thumbUndefB .. | .thumbUndefDe ..
  | .thumbUndefE8 .. => true
  | _ => false

/-- The state after an instruction in debug state: a system-speed one moves the PC on by two slots more
(R557), one that aborts too, whose entry to Abort mode is that of R513 from debug state's PC (DESIGN CHOICE, log
31); after a branch at debug speed the two words scanned in behind it are discarded, as the flushed
pipeline holds them (R549, DEDUCED, log 31). A PC past the top of the address space counts on from 0 (DESIGN
CHOICE, log 36). -/
def State.endDebugInstr (systemSpeed : Bool) (s : State) : State :=
  { s with
    pc := if systemSpeed then s.pc + s.len + s.len else s.pc
    pipe := []
    offTop := false
    dbg := { s.dbg with
      sysSpeed := false, pending := false, pendingAbort := false
      discard := if !systemSpeed && s.pipe.isEmpty then 2 else 0 } }

/-- The pipeline of scan chain 1 as an instruction executes: the word and those scanned in behind it; what a
branch flushes. -/
def scannedPipe (w : Word) : List Fetched := List.replicate 3 ⟨.ok w, false⟩

/-- An access to scan chain 1: bit 33 no longer tells the cause of debug entry (R555). -/
def State.accessChain1 (s : State) : State := { s with dbg := { s.dbg with firstCapture := false } }

/-- Whether R549 keeps a word from being scanned in, whatever its condition. -/
def State.forbidsScan (w : Word) (s : State) : Bool :=
  match decode (s.code w) with
  | .ok i => Instr.notScannable i
  | .error _ => false

/-- Whether a word is a load or store, which alone makes an access at system speed (R549). -/
def State.isTransfer (w : Word) (s : State) : Bool :=
  match decode (s.code w) with
  | .ok i => Instr.transfers i
  | .error _ => false

/-- An instruction executed in debug state, at debug or system speed (R549), as any other, with its condition
(R183, R197) and under the hazard of R586. -/
def State.runScanned (w : Word) (systemSpeed : Bool) (s : State) : Out :=
  match s.stuck with
  | some k => .fault k.fault
  | none =>
    match State.execute w { s with
        pipe := scannedPipe w, dbg := { s.dbg with sysSpeed := systemSpeed } } with
    | .next s => .next (s.endDebugInstr systemSpeed)
    | .fault f => .fault f
    | .refused r => .refused r

/-- A word scanned in for the core (R549, R555): behind a word with bit 33 LOW it executes at debug speed; behind
one with bit 33 HIGH it waits for RESTART, and no other word may be scanned in before (log 31). -/
def State.debugInstr (w : Word) (bit33 : Bool) (s : State) : Out :=
  if !s.dbg.ack then .refused .notInDebugState
  else if s.dbg.held.isSome then .refused .debugUndefined
  else
    let t := { s with dbg := { s.dbg with bit33 := bit33 } }
    if s.dbg.discard != 0 then .next { t with dbg := { t.dbg with discard := s.dbg.discard - 1 } }
    else if s.forbidsScan w then .refused .debugUndefined
    else if s.dbg.bit33 then .next { t with dbg := { t.dbg with held := some w } }
    else t.runScanned w false

/-- The end of debug state (R549, R554). -/
def State.leaveDebug (s : State) : State :=
  { s with
    pipe := []
    dbg := { s.dbg with ack := false, cause := none, bit33 := false, held := none, discard := 0 } }

/-- RUN-TEST/IDLE with RESTART (R549, R554): a load or store that waits makes its accesses at system speed, and
the core is in debug state again; the branch that waits executes and ends debug state, as RESTART does with
nothing waiting. Any other word may not wait. -/
def State.restart (s : State) : Out :=
  match s.dbg.held with
  | none => .next s.leaveDebug
  | some w =>
    match State.runScanned w (s.isTransfer w) { s with dbg := { s.dbg with held := none } } with
    | .next t =>
      if s.isTransfer w then .next t
      else if t.dbg.discard != 0 then .next t.leaveDebug
      else .refused .debugUndefined
    | .fault f => .fault f
    | .refused r => .refused r

/-! ## Captures (R554, R555) -/

/-- What a capture leaves to be shifted out. -/
def State.captured (v : Word) (bit : Bool) (s : State) : State :=
  { s with dbg := { s.dbg with scanResult := v, scanBit := bit } }

/-- CAPTURE-DR of scan chain 1 (R549, R555): the oldest word the core has put on the data bus at debug speed,
or any value; bit 33 is DBGBREAK, but at the first access after debug entry LOW for a breakpoint, HIGH for a
watchpoint, any value for a request. -/
def State.captureChain1 (s : State) : State :=
  let (f, s) := s.draw
  let bit :=
    if s.dbg.firstCapture then
      match s.dbg.cause with
      | some .breakpoint => false
      | some .watchpoint => true
      | _ => f.getLsbD 0
    else s.pins.dbgbreak
  let (w, s) :=
    match s.dbg.scanOut with
    | v :: rest => (v, { s with dbg := { s.dbg with scanOut := rest } })
    | [] => s.draw
  (s.captured w bit).accessChain1

/-- CAPTURE-DR of the selected scan chain: chain 1; chains 2 and 15, where the last read waits and nothing is
captured; the reserved chains 3, 4 and 8, which scan out zeros (U30); the others, which are not of the
macrocell. -/
def State.captureChain (s : State) : State :=
  match s.dbg.scanPath with
  | 1 => s.captureChain1
  | 2 => s
  | 15 => s
  | 3 => s.captured 0 false
  | 4 => s.captured 0 false
  | 8 => s.captured 0 false
  | _ =>
    let (f, s) := s.draw
    s.captured f false

/-- CAPTURE-DR (R554): of the register the TAP instruction connects; RESTART and every unused code connect
the bypass register, which captures 0. -/
def State.captureDr (s : State) : State :=
  match s.dbg.tapInstr with
  | 0b1110 => s.captured s.platform.jtagId false
  | 0b0010 => s.captured 0b1000 false
  | 0b1100 => s.captureChain
  | _ => { s with dbg := { s.dbg with bypass := false } }.captured 0 false

/-- A bit shifted through the bypass register (R554). -/
def State.shiftBypass (tdi : Bool) (s : State) : State :=
  { s with dbg := { s.dbg with bypass := tdi, scanBit := s.dbg.bypass } }

/-- Whether the bypass register stands between DBGTDI and DBGTDO (R554). -/
def Debug.bypassed (d : Debug) : Bool :=
  d.tapInstr != 0b1110 && d.tapInstr != 0b0010 && d.tapInstr != 0b1100

/-! ## The events -/

/-- INTEST with a scan chain selected: what the scan chain events need (R554). -/
def Debug.selects (d : Debug) (chain : BitVec 4) : Bool := d.tapInstr == 0b1100 && d.scanPath == chain

/-- The latch of DBGRQ open: it takes the bit of the Debug Control Register (R65, R550). -/
def State.openLatch (s : State) : State :=
  { s with dbg := { s.dbg with requestLatch := s.dbg.ctl.getLsbD 1 } }

/-- DBGnTRST LOW (R75, R554, R573): what R573 gives no value keeps the value it has, and debug state ends (DESIGN
CHOICE, log 47). -/
def Debug.trst (d : Debug) : Debug :=
  { d with
    tapInstr := 0b1110, scanPath := 0, chainOut := false, requestLatch := false, ack := false, cause := none, pending := false,
    pendingAbort := false, sysSpeed := false, bit33 := false, held := none, discard := 0
    firstCapture := false }

/-- One event from outside. An event of a scan chain that is not selected has no effect on it. -/
def State.occur (e : EnvEvent) (s : State) : Out :=
  match e with
  | .tick => s.coreStep
  | .interruptLines fiq irq => .next { s with pins := { s.pins with fiq := fiq, irq := irq } }
  | .reset vinithi amid first reads => .next ((s.abandoned amid).warmReset vinithi first reads)
  | .busGrant => .next { s with memsys := s.memsys.drainOne s.platform.bigEndian }
  | .masterWrite pa v => .next { s with memsys := { s.memsys with mem := s.memsys.mem.set pa.toNat v } }
  | .debugPins dbgen dbgrq dbgbreak dbgext =>
    .next { s with
      pins := { s.pins with dbgen := dbgen, dbgrq := dbgrq, dbgbreak := dbgbreak, dbgext := dbgext } }
  | .trst => .next { s with dbg := s.dbg.trst }
  | .tapInstruction code => .next { s with dbg := { s.dbg with tapInstr := code } }
  | .captureIr => .next (s.captured 0b0001 false)
  | .captureDr => .next s.captureDr
  | .shiftBypass tdi => .next (if s.dbg.bypassed then s.shiftBypass tdi else s)
  | .scanPath chain =>
    .next (if s.dbg.tapInstr = 0b0010 then { s with dbg := { s.dbg with scanPath := chain } } else s)
  | .scan2 write addr v =>
    if s.dbg.selects 2 then (if write then s.scan2Write addr v else s.scan2Read addr) else .next s
  | .scan15 write code v => if s.dbg.selects 15 then s.scan15 write code v else .next s
  | .debugInstr w bit33 =>
    if s.dbg.selects 1 then s.accessChain1.debugInstr w bit33 else .next s
  | .debugData v =>
    .next (if s.dbg.selects 1 then
        { s.accessChain1 with dbg := { s.accessChain1.dbg with scanIn := s.dbg.scanIn ++ [v] } }
      else s)
  | .runTestIdle =>
    let s := s.openLatch
    if s.dbg.tapInstr = 0b0100 && s.dbg.ack then s.restart else .next s

/-- One step of the machine: the next event of the schedule, or an instruction when none is left. -/
def State.stepOnce (s : State) : Out :=
  match s.schedule with
  | [] => s.coreStep
  | e :: rest => State.occur e { s with schedule := rest }

/-! ## Placing an instruction -/

/-- Where the fetch of the next instruction reads physical memory (R100). -/
def State.fetchPa (s : State) : Word :=
  match (s.memsys.resolve s.platform.bigEndian s.cp15 .fetch .word s.privileged s.pc).1 with
  | .ok r => r.pa
  | _ => fcse s.cp15.pid s.pc

/-- The state with an instruction of the current state's length in memory where the next fetch reads:
a word as it is, a halfword in the lanes the fetch takes (R93, R95). -/
def State.placeCode (w : Word) (s : State) : State :=
  let pa := s.fetchPa
  let old := s.memsys.mem.word s.platform.bigEndian pa
  { s with
    memsys := { s.memsys with
      mem := s.memsys.mem.setWord s.platform.bigEndian pa
        (putLanes s.cp15.bigEndian s.fetchSize s.pc old w) }
    pipe := []
    schedule := [] }

/-- The state with T as an instruction's length needs it: 16 bits for Thumb, else ARM (R209). -/
def State.forLength (nbits : Nat) (s : State) : State := s.setThumb (nbits == 16)

end Sys2Proof.Machine
end

