-- ==== Sys2Proof/Machine/Step.lean ====
section
/-! DEFINITION. The step, and the placing of one instruction for it. -/

namespace Sys2Proof.Machine

/-- One step of the machine. -/
def step (s : State) : Host.Outcome State Fault Refusal := s.stepOnce

/-- A state whose next step fetches and runs one instruction, its bits as spec/opcode_table.json numbers
them. -/
def State.withFetchWord (s : State) (nbits w : Nat) : State :=
  (s.forLength nbits).placeCode (BitVec.ofNat 32 w)

end Sys2Proof.Machine
end

