-- ==== Sys2Proof/Safety.lean ====
section
/-! DEFINITION. The terms the claims are stated in: memory as it stands once buffered writes are
performed, a run without debugger and bus errors, where an access goes and what it reads, what an
instruction leaves unchanged, and the invariant of the machine. -/

namespace Sys2Proof.Machine

/-! ## Memory as it stands -/

/-- Physical memory once the buffered writes are performed (R152, R155). -/
def State.settled (s : State) : Memory := (s.memsys.drain s.platform.bigEndian).mem

/-- One byte of physical memory as it stands. -/
def State.byteAt (s : State) (a : Nat) : Byte := s.settled.get a

/-- The byte a write of a datum leaves at a physical address, if it writes there (R93): `big` is the
platform's own byte order, in which the bytes of memory are numbered. -/
def storedByte (big : Bool) (n : Size) (pa v : Word) (x : Nat) : Option Byte :=
  match n with
  | .byte => if x = pa.toNat then some (v.extractLsb' 0 8) else none
  | .half =>
    if x / 2 = pa.toNat / 2 then some (v.extractLsb' (8 * (if big then 1 - x % 2 else x % 2)) 8)
    else none
  | .word =>
    if x / 4 = pa.toNat / 4 then some (v.extractLsb' (8 * (if big then 3 - x % 4 else x % 4)) 8)
    else none

/-- The byte a sequence of word writes leaves at a physical address, if one of them writes there: the last
that does (R331). -/
def storedWords (big : Bool) : List Word → List Word → Nat → Option Byte
  | pa :: pas, v :: vs, x => (storedWords big pas vs x).or (storedByte big .word pa v x)
  | _, _, _ => none

/-! ## A quiet machine -/

/-- No transfer is answered ERROR (D17): OKAY, after any number of RETRY and SPLIT (R162). No other master
writes, and memory is plain memory at every address (D22). -/
structure MemSys.Calm (ms : MemSys) : Prop where
  okay : ∀ a ∈ ms.answers, a.error = false
  alone : ∀ a ∈ ms.answers, a.writes = []
  plain : ms.slaves = []

/-- Memory is in its canonical form, the bus is calm, no debugger is attached (D18). -/
structure State.Quiet (s : State) : Prop where
  canonical : s.memsys.mem.wf = true
  calm : s.memsys.Calm
  dbgen : s.pins.dbgen = false
  ack : s.dbg.ack = false

/-- MMU off, alignment checking off, FCSE PID zero: a virtual address is the physical one. -/
structure State.Flat (s : State) : Prop where
  mmu : s.cp15.mmuOn = false
  align : s.cp15.alignOn = false
  pid : s.cp15.pid = 0

/-! ## Where an access goes -/

/-- Steps 1 to 3 of the access algorithm let an access through to this place (R100). -/
def State.Reaches (s : State) (k : Access) (n : Size) (priv : Bool) (va : Word) (r : Route) : Prop :=
  (s.memsys.resolve s.platform.bigEndian s.cp15 k n priv va).1 = .ok r

/-- Steps 1 to 3 of the access algorithm abort an access with these codes (R100). -/
def State.Aborts (s : State) (k : Access) (n : Size) (priv : Bool) (va : Word) (i : AbortInfo) : Prop :=
  (s.memsys.resolve s.platform.bigEndian s.cp15 k n priv va).1 = .abort i

/-- The answers one transfer takes: up to the first that does not make the master repeat it (R162). -/
def answersTaken : List BusAnswer → List BusAnswer
  | [] => []
  | a :: rest => a :: if a.repeats then answersTaken rest else []

/-- An access that steps 1 to 3 let through to a place draws ERROR from the slave there (R136, R162), after any
number of RETRY and SPLIT, once the buffered writes are performed; `m` is the memory system after those
steps. -/
def State.DrawsError (s : State) (k : Access) (n : Size) (priv : Bool) (va : Word) (r : Route)
    (m : MemSys) : Prop :=
  s.memsys.resolve s.platform.bigEndian s.cp15 k n priv va = (.ok r, m) ∧
    let d := m.drain s.platform.bigEndian
    (d.slaveAt r.pa = some .absent ∨ ∃ a ∈ (answersTaken d.answers).getLast?, a.error = true) ∧
      ∀ a ∈ answersTaken d.answers, a.writes = []

/-- The lane word a read gets (R142, R155): the cache's on a hit of a cachable read, else memory's once
the buffered writes are performed. -/
def State.wordRead (s : State) (k : Access) (mva : Word) (r : Route) : Word :=
  match if s.cp15.cacheOn && r.cachable && k != .swapRead then s.memsys.cacheFind mva else none with
  | some i => (s.memsys.cache[segmentOf mva][i]).words[wordOf mva]
  | none => s.settled.word s.platform.bigEndian r.pa

/-- The datum a read of a virtual address gets, zero-extended (R93). -/
def State.datum (s : State) (k : Access) (n : Size) (va : Word) (r : Route) : Word :=
  lanes s.cp15.bigEndian n va (s.wordRead k (accessMva s.cp15 n va) r)

/-- A sequence of word reads at ascending addresses, the first of this kind, is let through and gets these
words, each at the state the reads before it leave (R331). -/
def State.ReadsWords (k : Access) (priv : Bool) : State → Word → List Word → Prop
  | _, _, [] => True
  | s, a, w :: ws =>
    (∃ r, s.Reaches k .word priv a r ∧ w = s.datum k .word a r) ∧
      State.ReadsWords k.next priv (s.load k .word priv a).2 (a + 4) ws

/-- A sequence of word writes of these values at ascending addresses, the first of this kind, is let through to these
physical addresses, each at the state the writes before it leave (R331). -/
def State.WritesWords (k : Access) (priv : Bool) : State → Word → List Word → List Word → Prop
  | _, _, [], [] => True
  | s, a, v :: vs, pa :: pas =>
    (∃ r, s.Reaches k .word priv a r ∧ pa = r.pa) ∧
      State.WritesWords k.next priv (s.store k .word priv a v).2 (a + 4) vs pas
  | _, _, _, _ => False

/-- The word at an address of a flat machine, whose bits [1:0] are ignored (R96). -/
def State.wordAt (s : State) (a : Word) : Word :=
  s.settled.word s.platform.bigEndian (a &&& 0xfffffffc)

/-! ## What an instruction leaves unchanged -/

/-- Every general register of every bank is as before, but for the entries listed. -/
def SameRegsBut (ks : List (Fin 30)) (s t : State) : Prop := ∀ k : Fin 30, k ∉ ks → t.regs[k] = s.regs[k]

/-- The saved status registers, the coprocessors, the debug logic, the pins and the stuck state are as
before. -/
structure SameSystem (s t : State) : Prop where
  spsrFiq : t.spsrFiq = s.spsrFiq
  spsrIrq : t.spsrIrq = s.spsrIrq
  spsrSvc : t.spsrSvc = s.spsrSvc
  spsrAbt : t.spsrAbt = s.spsrAbt
  spsrUnd : t.spsrUnd = s.spsrUnd
  cp15 : t.cp15 = s.cp15
  cp14 : t.cp14 = s.cp14
  dbg : t.dbg = s.dbg
  pins : t.pins = s.pins
  platform : t.platform = s.platform
  coproc : t.coproc = s.coproc
  calls : t.calls = s.calls
  schedule : t.schedule = s.schedule
  stuck : t.stuck = s.stuck

/-- The registers of the cache and TLB test operations are as before (R55 to R58). -/
structure SameTestRegs (s t : State) : Prop where
  cacheVictim : t.memsys.cacheVictim = s.memsys.cacheVictim
  cacheBase : t.memsys.cacheBase = s.memsys.cacheBase
  cacheStep : t.memsys.cacheStep = s.memsys.cacheStep
  c15c : t.memsys.c15c = s.memsys.c15c
  tlbBase : t.memsys.tlbBase = s.memsys.tlbBase
  tlbPreserve : t.memsys.tlbPreserve = s.memsys.tlbPreserve
  ram2Pointer : t.memsys.ram2Pointer = s.memsys.ram2Pointer
  c15m : t.memsys.c15m = s.memsys.c15m

/-- Only the listed registers, the CPSR and the program counter may have changed. -/
structure OnlyCore (ks : List (Fin 30)) (s t : State) : Prop where
  regs : SameRegsBut ks s t
  system : SameSystem s t
  memsys : t.memsys = s.memsys
  bytes : ∀ a, t.byteAt a = s.byteAt a

/-- Only the listed registers, the flags and the program counter may have changed. -/
structure OnlyRegisters (ks : List (Fin 30)) (s t : State) : Prop extends OnlyCore ks s t where
  control : t.cpsr.extractLsb' 0 28 = s.cpsr.extractLsb' 0 28

/-- Only the listed registers, the program counter, and memory, cache, TLB and write buffer may have
changed. -/
structure OnlyTransfer (ks : List (Fin 30)) (s t : State) : Prop where
  regs : SameRegsBut ks s t
  cpsr : t.cpsr = s.cpsr
  system : SameSystem s t
  tests : SameTestRegs s t

/-- A load: memory too is as before. -/
structure OnlyLoad (ks : List (Fin 30)) (s t : State) : Prop extends OnlyTransfer ks s t where
  bytes : ∀ a, t.byteAt a = s.byteAt a

/-- A store of one datum: every byte of memory is the datum's or as before. -/
structure OnlyStore (ks : List (Fin 30)) (n : Size) (pa v : Word) (s t : State) : Prop
    extends OnlyTransfer ks s t where
  bytes : ∀ a, t.byteAt a = (storedByte s.platform.bigEndian n pa v a).getD (s.byteAt a)

/-- The four flags. -/
def FlagsAre (t : State) (n z c v : Bool) : Prop :=
  t.flagN = n ∧ t.flagZ = z ∧ t.flagC = c ∧ t.flagV = v

/-- Whether an integer is outside the signed 32-bit range (R241). -/
def overflows (z : Int) : Bool := decide (z < -(2 ^ 31) ∨ 2 ^ 31 ≤ z)

/-- An instruction that leaves a value in a register other than r15, with S = 1 these flags, and goes on. -/
def LeavesResult (s t : State) (sf : Bool) (rd : Reg) (v : Word) (c ov : Bool) : Prop :=
  t.reg rd = v ∧ t.pc = s.pc + s.len ∧ OnlyRegisters [phys s.mode rd] s t ∧
    if sf then FlagsAre t v.msb (v == 0) c ov else t.cpsr = s.cpsr

/-- An instruction that leaves the flags of a value and goes on. -/
def LeavesFlags (s t : State) (v : Word) (c ov : Bool) : Prop :=
  t.pc = s.pc + s.len ∧ OnlyRegisters [] s t ∧ FlagsAre t v.msb (v == 0) c ov

/-- The destination-writing data-processing instructions, each with the value it leaves (R244 to R251,
R256 to R259). -/
def State.dataProcResults (s : State) (c : Cond) (sf : Bool) (rn rd : Reg) (op2 : Operand2) :
    List (Instr × Word) :=
  let a := s.reg rn
  let b := (s.operand2 op2).value
  let k : Word := if s.flagC then 1 else 0
  [(.armAnd c sf rn rd op2, a &&& b), (.armEor c sf rn rd op2, a ^^^ b), (.armSub c sf rn rd op2, a - b),
    (.armRsb c sf rn rd op2, b - a), (.armAdd c sf rn rd op2, a + b), (.armAdc c sf rn rd op2, a + b + k),
    (.armSbc c sf rn rd op2, a - b - (1 - k)), (.armRsc c sf rn rd op2, b - a - (1 - k)),
    (.armOrr c sf rn rd op2, a ||| b), (.armMov c sf rd op2, b), (.armBic c sf rn rd op2, a &&& ~~~b),
    (.armMvn c sf rd op2, ~~~b)]

/-! ## Single transfers -/

/-- A load or store of one datum as R300, R311 and R450 describe it: its width, its address, the base it
writes back with what value, its privilege, its data register, and for a load what the datum becomes. -/
structure Transfer where
  instr : Instr
  size : Size
  addr : Word
  base : Option (Reg × Word)
  priv : Bool
  rd : Reg
  value : Word → Word

/-- Rn plus or minus the offset (R189, R190, U). -/
def State.indexedBase (s : State) (up : Bool) (rn : Reg) (off : Word) : Word :=
  if up then s.reg rn + off else s.reg rn - off

/-- The address and write-back of addressing modes 2 and 3 (R189, R190). -/
def State.modeAddress (s : State) (index : Index) (up : Bool) (rn : Reg) (off : Word) :
    Word × Option (Reg × Word) :=
  match index with
  | .offset => (s.indexedBase up rn off, none)
  | .pre => (s.indexedBase up rn off, some (rn, s.indexedBase up rn off))
  | .post => (s.reg rn, some (rn, s.indexedBase up rn off))

/-- What LDR makes of the aligned word at an address (R97, R301). -/
def rotatedWord (a w : Word) : Word := w.rotateRight (8 * (a.toNat % 4))

/-- LDR, LDRB (R301, R303) and LDRT, LDRBT, which post-index with User privilege (R305, R307, R309). -/
def State.armLoads2 (s : State) (c : Cond) (index : Index) (up : Bool) (rn rd : Reg) (off : Offset2) :
    List Transfer :=
  let x := s.modeAddress index up rn (s.offset2 off)
  let y := s.modeAddress .post up rn (s.offset2 off)
  [⟨.armLdr c index up rn rd off, .word, x.1, x.2, s.privileged, rd, rotatedWord x.1⟩,
    ⟨.armLdrb c index up rn rd off, .byte, x.1, x.2, s.privileged, rd, fun w => w⟩,
    ⟨.armLdrt c up rn rd off, .word, y.1, y.2, false, rd, rotatedWord y.1⟩,
    ⟨.armLdrbt c up rn rd off, .byte, y.1, y.2, false, rd, fun w => w⟩]

/-- LDRH, LDRSB, LDRSH (R312, R314, R315). -/
def State.armLoads3 (s : State) (c : Cond) (index : Index) (up : Bool) (rn rd : Reg) (off : Offset3) :
    List Transfer :=
  let x := s.modeAddress index up rn (s.offset3 off)
  [⟨.armLdrh c index up rn rd off, .half, x.1, x.2, s.privileged, rd, fun w => w⟩,
    ⟨.armLdrsb c index up rn rd off, .byte, x.1, x.2, s.privileged, rd,
      fun w => BitVec.ofInt 32 (w.extractLsb' 0 8).toInt⟩,
    ⟨.armLdrsh c index up rn rd off, .half, x.1, x.2, s.privileged, rd,
      fun w => BitVec.ofInt 32 (w.extractLsb' 0 16).toInt⟩]

/-- The Thumb loads (R451, R454, R455, R457 to R459, R461, R463, R465, R467). -/
def State.thumbLoads (s : State) (ro rb rd : LowReg) (imm5 : BitVec 5) (word8 : BitVec 8) : List Transfer :=
  let x := s.reg rb.reg + s.reg ro.reg
  let at4 := s.reg rb.reg + BitVec.ofNat 32 (4 * imm5.toNat)
  let at2 := s.reg rb.reg + BitVec.ofNat 32 (2 * imm5.toNat)
  let at1 := s.reg rb.reg + BitVec.ofNat 32 imm5.toNat
  let pc := (s.pcRead &&& 0xfffffffc) + BitVec.ofNat 32 (4 * word8.toNat)
  let sp := s.reg 13 + BitVec.ofNat 32 (4 * word8.toNat)
  let p := s.privileged
  let r : Reg := rd.reg
  [⟨.thumbLdrPc rd word8, .word, pc, none, p, r, rotatedWord pc⟩,
    ⟨.thumbLdrReg ro rb rd, .word, x, none, p, r, rotatedWord x⟩,
    ⟨.thumbLdrbReg ro rb rd, .byte, x, none, p, r, fun w => w⟩,
    ⟨.thumbLdrsbReg ro rb rd, .byte, x, none, p, r, fun w => BitVec.ofInt 32 (w.extractLsb' 0 8).toInt⟩,
    ⟨.thumbLdrhReg ro rb rd, .half, x, none, p, r, fun w => w⟩,
    ⟨.thumbLdrshReg ro rb rd, .half, x, none, p, r, fun w => BitVec.ofInt 32 (w.extractLsb' 0 16).toInt⟩,
    ⟨.thumbLdrImm imm5 rb rd, .word, at4, none, p, r, rotatedWord at4⟩,
    ⟨.thumbLdrbImm imm5 rb rd, .byte, at1, none, p, r, fun w => w⟩,
    ⟨.thumbLdrhImm imm5 rb rd, .half, at2, none, p, r, fun w => w⟩,
    ⟨.thumbLdrSp rd word8, .word, sp, none, p, r, rotatedWord sp⟩]

/-- STR, STRB (R302, R304) and STRT, STRBT (R306, R308, R309). -/
def State.armStores2 (s : State) (c : Cond) (index : Index) (up : Bool) (rn rd : Reg) (off : Offset2) :
    List Transfer :=
  let x := s.modeAddress index up rn (s.offset2 off)
  let y := s.modeAddress .post up rn (s.offset2 off)
  [⟨.armStr c index up rn rd off, .word, x.1, x.2, s.privileged, rd, id⟩,
    ⟨.armStrb c index up rn rd off, .byte, x.1, x.2, s.privileged, rd, id⟩,
    ⟨.armStrt c up rn rd off, .word, y.1, y.2, false, rd, id⟩,
    ⟨.armStrbt c up rn rd off, .byte, y.1, y.2, false, rd, id⟩]

/-- STRH (R313). -/
def State.armStores3 (s : State) (c : Cond) (index : Index) (up : Bool) (rn rd : Reg) (off : Offset3) :
    List Transfer :=
  let x := s.modeAddress index up rn (s.offset3 off)
  [⟨.armStrh c index up rn rd off, .half, x.1, x.2, s.privileged, rd, id⟩]

/-- The Thumb stores (R452, R453, R456, R460, R462, R464, R466). -/
def State.thumbStores (s : State) (ro rb rd : LowReg) (imm5 : BitVec 5) (word8 : BitVec 8) : List Transfer :=
  let x := s.reg rb.reg + s.reg ro.reg
  let at4 := s.reg rb.reg + BitVec.ofNat 32 (4 * imm5.toNat)
  let at2 := s.reg rb.reg + BitVec.ofNat 32 (2 * imm5.toNat)
  let at1 := s.reg rb.reg + BitVec.ofNat 32 imm5.toNat
  let sp := s.reg 13 + BitVec.ofNat 32 (4 * word8.toNat)
  let p := s.privileged
  let r : Reg := rd.reg
  [⟨.thumbStrReg ro rb rd, .word, x, none, p, r, id⟩,
    ⟨.thumbStrbReg ro rb rd, .byte, x, none, p, r, id⟩,
    ⟨.thumbStrhReg ro rb rd, .half, x, none, p, r, id⟩,
    ⟨.thumbStrImm imm5 rb rd, .word, at4, none, p, r, id⟩,
    ⟨.thumbStrbImm imm5 rb rd, .byte, at1, none, p, r, id⟩,
    ⟨.thumbStrhImm imm5 rb rd, .half, at2, none, p, r, id⟩,
    ⟨.thumbStrSp rd word8, .word, sp, none, p, r, id⟩]

/-- A load of one datum that executes: its condition passes and its registers break no restriction. -/
def State.IsLoad (s : State) (p : Transfer) : Prop :=
  p.instr.broken = none ∧
    ((∃ c index up rn rd off, s.passes c = true ∧ p ∈ s.armLoads2 c index up rn rd off) ∨
      (∃ c index up rn rd off, s.passes c = true ∧ p ∈ s.armLoads3 c index up rn rd off) ∨
      ∃ ro rb rd imm5 word8, p ∈ s.thumbLoads ro rb rd imm5 word8)

/-- A store of one datum that executes. -/
def State.IsStore (s : State) (p : Transfer) : Prop :=
  p.instr.broken = none ∧
    ((∃ c index up rn rd off, s.passes c = true ∧ p ∈ s.armStores2 c index up rn rd off) ∨
      (∃ c index up rn rd off, s.passes c = true ∧ p ∈ s.armStores3 c index up rn rd off) ∨
      ∃ ro rb rd imm5 word8, p ∈ s.thumbStores ro rb rd imm5 word8)

/-- The entry a transfer's write-back changes. -/
def Transfer.baseEntry (p : Transfer) (s : State) : List (Fin 30) :=
  match p.base with
  | none => []
  | some (rn, _) => [phys s.mode rn]

/-- The state with a transfer's base written back (R317). -/
def Transfer.writeBase (p : Transfer) (s : State) : State :=
  match p.base with
  | none => s
  | some (rn, v) => s.setReg rn v

/-- A halfword transfer at an odd address (R97, R316). -/
def Transfer.oddHalf (p : Transfer) : Bool := p.size == .half && p.addr.getLsbD 0

/-- What a store of a register stores: r15 as iaddr + 12 (R27, R319). -/
def State.stored (s : State) (rd : Reg) : Word := if rd = 15 then s.pcRead + 4 else s.reg rd

/-! ## Block transfers -/

/-- The four LDM, each with its lowest address and the base it writes back (R191, R330). -/
def State.ldmForms (s : State) (c : Cond) (sf wb : Bool) (rn : Reg) (list : BitVec 16) :
    List (Instr × Word × Word) :=
  let b := s.reg rn
  let n := BitVec.ofNat 32 (4 * (listedRegs list).length)
  [(.armLdmia c sf wb rn list, b, b + n), (.armLdmib c sf wb rn list, b + 4, b + n),
    (.armLdmda c sf wb rn list, b - n + 4, b - n), (.armLdmdb c sf wb rn list, b - n, b - n)]

/-- The four STM, likewise. -/
def State.stmForms (s : State) (c : Cond) (sf wb : Bool) (rn : Reg) (list : BitVec 16) :
    List (Instr × Word × Word) :=
  let b := s.reg rn
  let n := BitVec.ofNat 32 (4 * (listedRegs list).length)
  [(.armStmia c sf wb rn list, b, b + n), (.armStmib c sf wb rn list, b + 4, b + n),
    (.armStmda c sf wb rn list, b - n + 4, b - n), (.armStmdb c sf wb rn list, b - n, b - n)]

/-- The words a block of word reads gives on a flat machine (R191, R331). -/
def State.flatWords (s : State) (start : Word) (n : Nat) : List Word :=
  (List.range n).map fun k => s.wordAt (start + BitVec.ofNat 32 (4 * k))

/-- The physical addresses of a block of word accesses on a flat machine (R96, R331). -/
def flatAddresses (start : Word) (n : Nat) : List Word :=
  (List.range n).map fun k => (start + BitVec.ofNat 32 (4 * k)) &&& 0xfffffffc

/-- A block load: its lowest address, its base and what is written back to it, its registers in ascending
order and the mode whose registers they are. -/
structure BlockLoad where
  instr : Instr
  start : Word
  rn : Reg
  newBase : Option Word
  regs : List Reg
  bank : Mode

/-- A block store: likewise, with the values it stores in ascending order. -/
structure BlockStore where
  instr : Instr
  start : Word
  rn : Reg
  newBase : Option Word
  values : List Word

/-- LDM: with ^ and without r15 in the list it loads the User registers (R332 to R334). -/
def State.armBlockLoads (s : State) (c : Cond) (sf wb : Bool) (rn : Reg) (list : BitVec 16) :
    List BlockLoad :=
  (s.ldmForms c sf wb rn list).map fun p =>
    ⟨p.1, p.2.1, rn, if wb then some p.2.2 else none, listedRegs list,
      if sf && !list.getLsbD 15 then .usr else s.mode⟩

/-- POP and LDMIA of Thumb state (R469, R471). -/
def State.thumbBlockLoads (s : State) (extra : Bool) (rb : LowReg) (list : BitVec 8) : List BlockLoad :=
  let pop := if extra then listedRegs list ++ [15] else listedRegs list
  [⟨.thumbPop extra list, s.reg 13, 13, some (s.reg 13 + BitVec.ofNat 32 (4 * pop.length)), pop, s.mode⟩,
    ⟨.thumbLdmia rb list, s.reg rb.reg, rb.reg,
      some (s.reg rb.reg + BitVec.ofNat 32 (4 * (listedRegs list).length)), listedRegs list, s.mode⟩]

/-- A block load that executes: its condition passes, its registers break no restriction, and a form with ^
has an SPSR (R333, R334). -/
def State.IsBlockLoad (s : State) (p : BlockLoad) : Prop :=
  p.instr.broken = none ∧
    ((∃ c sf wb rn list, s.passes c = true ∧ (sf = true → s.spsrOf s.mode ≠ none) ∧
        p ∈ s.armBlockLoads c sf wb rn list) ∨
      ∃ extra rb list, p ∈ s.thumbBlockLoads extra rb list)

/-- What STM stores of a register: r15 as iaddr + 12, with ^ the User register (R335, R338). -/
def State.blockValue (s : State) (sf : Bool) (i : Reg) : Word :=
  if i = 15 then s.pcRead + 4 else if sf then s.regs[phys .usr i] else s.reg i

/-- STM (R335, R338). -/
def State.armBlockStores (s : State) (c : Cond) (sf wb : Bool) (rn : Reg) (list : BitVec 16) :
    List BlockStore :=
  (s.stmForms c sf wb rn list).map fun p =>
    ⟨p.1, p.2.1, rn, if wb then some p.2.2 else none, (listedRegs list).map (s.blockValue sf)⟩

/-- PUSH and STMIA of Thumb state (R468, R470). -/
def State.thumbBlockStores (s : State) (extra : Bool) (rb : LowReg) (list : BitVec 8) : List BlockStore :=
  let push := if extra then listedRegs list ++ [14] else listedRegs list
  let sp := s.reg 13 - BitVec.ofNat 32 (4 * push.length)
  [⟨.thumbPush extra list, sp, 13, some sp, push.map s.reg⟩,
    ⟨.thumbStmia rb list, s.reg rb.reg, rb.reg,
      some (s.reg rb.reg + BitVec.ofNat 32 (4 * (listedRegs list).length)), (listedRegs list).map s.reg⟩]

/-- A block store that executes. -/
def State.IsBlockStore (s : State) (p : BlockStore) : Prop :=
  p.instr.broken = none ∧
    ((∃ c sf wb rn list, s.passes c = true ∧ (sf = true → s.spsrOf s.mode ≠ none) ∧
        p ∈ s.armBlockStores c sf wb rn list) ∨
      ∃ extra rb list, p ∈ s.thumbBlockStores extra rb list)

/-- The state with a base written back, when it is (R317, R336, R360). -/
def State.withBase (s : State) (rn : Reg) (newBase : Option Word) : State :=
  match newBase with
  | none => s
  | some v => s.setReg rn v

/-! ## Watchpoints -/

/-- Every bit of a value that its mask does not let pass is the bit compared with it (R548). -/
def BitsOk {w : Nat} (value mask x : BitVec w) : Prop :=
  ∀ i < w, mask.getLsbD i = true ∨ value.getLsbD i = x.getLsbD i

/-- addr_ctl_match of a unit (R548): the address, WRITE, SIZE[1:0], PROT[0] and PROT[1]. -/
def WatchUnit.AddressMatches (u : WatchUnit) (y : BusCycle) : Prop :=
  BitsOk u.addrValue u.addrMask y.addr ∧
    ∀ q ∈ [(0, y.writes), (1, y.size == .half), (2, y.size == .word), (3, y.dataAccess), (4, y.priv)],
      u.ctlMask.getLsbD q.1 = true ∨ u.ctlValue.getLsbD q.1 = q.2

/-- data_ext_match of a unit (R548): the lanes of the data bus in use, DBGEXT, CHAIN and RANGE. -/
def WatchUnit.DataMatches (u : WatchUnit) (y : BusCycle) (range chain ext : Bool) : Prop :=
  BitsOk u.dataValue (u.dataMask ||| y.ignore) y.data ∧
    ∀ q ∈ [(5, ext), (6, chain), (7, range)],
      u.ctlMask.getLsbD q.1 = true ∨ u.ctlValue.getLsbD q.1 = q.2

/-- The bus cycle of a read that goes to a place, as the units see it. -/
def State.readCycle (s : State) (n : Size) (priv : Bool) (va : Word) (r : Route) : BusCycle :=
  ⟨va, s.wordRead .read (accessMva s.cp15 n va) r, 0, false, n, true, priv⟩

/-- The bus cycle of a write. -/
def writeCycle (n : Size) (priv : Bool) (va v : Word) : BusCycle :=
  ⟨va, replicated n v, 0, true, n, true, priv⟩

/-- Whether a unit triggers on a cycle (R548). -/
def State.triggers (s : State) (y : BusCycle) : Bool :=
  (s.dbg.compare s.pins.dbgext (Config.unit1Inputs s.draws) y).1

/-- The same machine with DBGEN LOW (R545). -/
def State.undebugged (s : State) : State := { s with pins := { s.pins with dbgen := false } }

/-! ## Conditions -/

/-- The condition an instruction is executed under: every ARM instruction's and the Thumb conditional
branch's (R183, R205). -/
def Instr.cond : Instr → Option Cond
  | .armAnd c .. | .armEor c .. | .armSub c .. | .armRsb c .. | .armAdd c .. | .armAdc c ..
  | .armSbc c .. | .armRsc c .. | .armTst c .. | .armTeq c .. | .armCmp c .. | .armCmn c ..
  | .armOrr c .. | .armMov c .. | .armBic c .. | .armMvn c .. | .armMul c .. | .armMla c ..
  | .armUmull c .. | .armUmlal c .. | .armSmull c .. | .armSmlal c .. | .armSwp c ..
  | .armSwpb c .. | .armMrs c .. | .armMsrReg c .. | .armMsrImm c .. | .armBx c .. | .armB c ..
  | .armBl c .. | .armLdr c .. | .armStr c .. | .armLdrb c .. | .armStrb c .. | .armLdrt c ..
  | .armStrt c .. | .armLdrbt c .. | .armStrbt c .. | .armStrh c .. | .armLdrh c ..
  | .armLdrsb c .. | .armLdrsh c .. | .armLdmia c .. | .armLdmib c .. | .armLdmda c ..
  | .armLdmdb c .. | .armStmia c .. | .armStmib c .. | .armStmda c .. | .armStmdb c ..
  | .armSwi c .. | .armCdp c .. | .armLdc c .. | .armStc c .. | .armMcr c .. | .armMrc c ..
  | .armUndefMedia c .. | .armUndefMsr c .. | .thumbBCond c _ => some c
  | _ => none

/-- The instructions whose registers R197 and R206 restrict in no form. -/
def Instr.unrestricted : Instr → Bool
  | .armMsrImm .. | .armB .. | .armBl .. | .armSwi .. | .armCdp .. | .armMrc .. | .armUndefMedia ..
  | .armUndefMsr .. | .thumbLslImm .. | .thumbLsrImm .. | .thumbAsrImm .. | .thumbAddReg ..
  | .thumbSubReg .. | .thumbAddImm3 .. | .thumbSubImm3 .. | .thumbMovImm .. | .thumbCmpImm ..
  | .thumbAddImm8 .. | .thumbSubImm8 .. | .thumbAnd .. | .thumbEor .. | .thumbLslReg .. | .thumbLsrReg ..
  | .thumbAsrReg .. | .thumbAdc .. | .thumbSbc .. | .thumbRor .. | .thumbTst .. | .thumbNeg ..
  | .thumbCmpReg .. | .thumbCmn .. | .thumbOrr .. | .thumbBic .. | .thumbMvn .. | .thumbBx ..
  | .thumbLdrPc .. | .thumbStrReg .. | .thumbStrbReg .. | .thumbLdrReg .. | .thumbLdrbReg ..
  | .thumbStrhReg .. | .thumbLdrsbReg .. | .thumbLdrhReg .. | .thumbLdrshReg .. | .thumbStrImm ..
  | .thumbLdrImm .. | .thumbStrbImm .. | .thumbLdrbImm .. | .thumbStrhImm .. | .thumbLdrhImm ..
  | .thumbStrSp .. | .thumbLdrSp .. | .thumbAddPc .. | .thumbAddSp .. | .thumbIncSp .. | .thumbDecSp ..
  | .thumbBCond .. | .thumbSwi .. | .thumbB .. | .thumbBlHigh .. | .thumbBlLow .. | .thumbUndefB ..
  | .thumbUndefDe .. | .thumbUndefE8 .. => true
  | _ => false

/-! ## Exceptions -/

/-- A value is one of two: what it was, or what an abandoned instruction made of it (R570). -/
def OneOf {α : Type} (x before after : α) : Prop := x = before ∨ x = after

/-- What taking an exception leaves (R503): `ret` in r14 of its mode, the old CPSR in its SPSR, the CPSR
with its mode, T = 0, I = 1 and for FIQ F = 1, the PC at its vector; no other register. FSR and FAR and what
memory holds are said apart. -/
structure Entered (e : Exc) (ret : Word) (s t : State) : Prop where
  link : t.regs[phys e.mode 14] = ret
  saved : t.spsrOf e.mode = some s.cpsr
  mode : modeField t.cpsr = e.mode.bits
  thumb : t.thumb = false
  irqMask : t.cpsr.getLsbD 7 = true
  fiqMask : t.cpsr.getLsbD 6 = (e == .fiq || s.cpsr.getLsbD 6)
  rest : t.cpsr.extractLsb' 8 24 = s.cpsr.extractLsb' 8 24
  pc : t.pc = (if s.cp15.control.getLsbD 13 then 0xffff0000 else 0) + e.offset
  regs : SameRegsBut [phys e.mode 14] s t
  others : ∀ m, m ≠ e.mode → t.spsrOf m = s.spsrOf m
  pipe : t.pipe = []

/-- The parts of the machine an exception entry does not touch. -/
structure SameOutside (s t : State) : Prop where
  cp15 : t.cp15 = s.cp15
  cp14 : t.cp14 = s.cp14
  memsys : t.memsys = s.memsys
  bytes : ∀ a, t.byteAt a = s.byteAt a
  dbg : t.dbg = s.dbg
  pins : t.pins = s.pins
  coproc : t.coproc = s.coproc
  calls : t.calls = s.calls
  stuck : t.stuck = s.stuck

/-! ## The invariant -/

/-- What every step keeps: memory in its canonical form, at most eight buffered writes (R150), a legal mode
(R35), an aligned program counter (R26), the constant bits of the Control Register (R43), no cache or write
buffer with the MMU off (R44), at most three prefetched instructions (R73). -/
structure State.Inv (s : State) : Prop where
  canonical : s.memsys.mem.wf = true
  buffer : s.memsys.wbuf.length ≤ 8
  mode : legalMode s.cpsr = true
  aligned : alignPc s.thumb s.pc = s.pc
  control : controlOf s.cp15.control = s.cp15.control
  cacheOff : s.cp15.mmuOn = false → s.cp15.cacheBit = false ∧ s.cp15.bufferBit = false
  prefetched : s.pipe.length ≤ 3

end Sys2Proof.Machine
end

