-- ==== Sys2Proof/Certificates/Slice0/Obligations.lean ====
section
/-! DEFINITION. The statements for the provers, from the numbered rules of spec/. -/

open Sys2Proof Sys2Proof.Machine

/-! ## Encoding, decoding, stepping -/

/-- Words of the spec's examples (R244, R270, R280, R292, R301, R359, R360, R362, R392, R412, R468, R475,
R484) decode to the instructions they stand for. A sanity statement. -/
def Obligations.SpecWordsDecode : Prop :=
  decodeTableWord 32 0xE0010002 = some (.armAnd .al false 1 0 (.shiftImm .lsl 0 2)) ∧
  decodeTableWord 32 0xE0100291 = some (.armMul .al true 0 2 1) ∧
  decodeTableWord 32 0xE10F0000 = some (.armMrs .al false 0) ∧
  decodeTableWord 32 0xE12FFF10 = some (.armBx .al 0) ∧
  decodeTableWord 32 0xE7910102 = some (.armLdr .al .offset true 1 0 (.reg .lsl 2 2)) ∧
  decodeTableWord 32 0xEB000040 = some (.armBl .al 0x40) ∧
  decodeTableWord 32 0xEE1327A4 = some (.armCdp .al 1 3 2 7 5 4) ∧
  decodeTableWord 32 0xED912704 = some (.armLdc .al true true false false 1 2 7 4) ∧
  decodeTableWord 32 0xEE080F37 = some (.armMcr .al 0 8 0 15 1 7) ∧
  decodeTableWord 16 0x0088 = some (.thumbLslImm 2 1 0) ∧
  decodeTableWord 16 0x4248 = some (.thumbNeg 1 0) ∧
  decodeTableWord 16 0xB510 = some (.thumbPush true 0x10) ∧
  decodeTableWord 16 0xD002 = some (.thumbBCond .eq 2) ∧
  decodeTableWord 16 0xF87E = some (.thumbBlLow 0x7e)

/-- Decoder and encoder agree in both directions, for every instruction and every word of both states (R180,
R181, R184, R199): a code decodes to an instruction exactly when the instruction is encodable and has that
code. Which words are rejected is log 14. -/
def Obligations.DecodeIffEncode : Prop :=
  ∀ (k : Code) (i : Instr), decode k = .ok i ↔ i.encodable = true ∧ encode i = k

/-- At an instruction boundary where nothing from outside intervenes, with an unmarked word at the head of
the prefetched instructions that decodes to i, the step is exec of i, at the state after the fetch; but an
instruction that executes right after a User-bank transfer and names a banked register (r8 to r14 in FIQ
mode, else r13 or r14) is refused (R586). The fetch changes the memory system, the prefetched instructions
and the Thumb prefetch buffer only. The boundary, the schedule and the prefetched instructions are the
model's (logs 5, 12); which registers an instruction names, and the refusal, are log 35. -/
def Obligations.StepRunsDecodedInstruction : Prop :=
  ∀ (s : State) (w : Word) (rest : List Fetched) (i : Instr),
    s.schedule = [] → s.stuck = none → s.dbg.ack = false → s.pins.dbgen = false → s.offTop = false →
    s.interrupt = none → s.prefetch.pipe = ⟨.ok w, false⟩ :: rest → decode (s.code w) = .ok i →
    let hazard := s.userBank = true ∧ s.wordPasses w = true ∧
      ∃ k ∈ i.regs, (if s.mode = .fiq then 8 else 13) ≤ k.toNat ∧ k.toNat ≤ 14
    (¬ hazard → step s = exec i { s.prefetch with userBank := false }) ∧
      (hazard → step s = .refused .bankedAfterUserTransfer) ∧
      s.prefetch = { s with
        memsys := s.prefetch.memsys, pipe := s.prefetch.pipe, thumbBuffer := s.prefetch.thumbBuffer }

/-- On a quiet machine with nothing prefetched, the head of the prefetched instructions is the instruction's
word or halfword of the 32-bit word a fetch reads at the physical address the access algorithm gives for pc
(R95, R100), and no byte of memory changes. The prefetched instructions are the model's (log 12). -/
def Obligations.FetchReadsProgramCounter : Prop :=
  ∀ (s : State) (r : Route), s.Quiet → s.pipe = [] → s.Reaches .fetch .word s.privileged s.pc r →
    let w := s.wordRead .fetch (accessMva s.cp15 .word s.pc) r
    ∃ f g : Fetched,
      s.prefetch.pipe = [⟨.ok (lanes s.cp15.bigEndian (if s.thumb then .half else .word) s.pc w), false⟩, f, g] ∧
        ∀ a, s.prefetch.byteAt a = s.byteAt a

/-- The condition codes and their predicates (R182). Code b1111 is no condition (R198); that the decoder
rejects every word with it under a name of its own is the model's choice (log 14). -/
def Obligations.ConditionCodes : Prop :=
  ∀ s : State,
    let n := s.cpsr.getLsbD 31
    let z := s.cpsr.getLsbD 30
    let c := s.cpsr.getLsbD 29
    let v := s.cpsr.getLsbD 28
    (Cond.ofBits 0 = some .eq ∧ (s.passes .eq = true ↔ z = true)) ∧
    (Cond.ofBits 1 = some .ne ∧ (s.passes .ne = true ↔ z = false)) ∧
    (Cond.ofBits 2 = some .cs ∧ (s.passes .cs = true ↔ c = true)) ∧
    (Cond.ofBits 3 = some .cc ∧ (s.passes .cc = true ↔ c = false)) ∧
    (Cond.ofBits 4 = some .mi ∧ (s.passes .mi = true ↔ n = true)) ∧
    (Cond.ofBits 5 = some .pl ∧ (s.passes .pl = true ↔ n = false)) ∧
    (Cond.ofBits 6 = some .vs ∧ (s.passes .vs = true ↔ v = true)) ∧
    (Cond.ofBits 7 = some .vc ∧ (s.passes .vc = true ↔ v = false)) ∧
    (Cond.ofBits 8 = some .hi ∧ (s.passes .hi = true ↔ c = true ∧ z = false)) ∧
    (Cond.ofBits 9 = some .ls ∧ (s.passes .ls = true ↔ c = false ∨ z = true)) ∧
    (Cond.ofBits 10 = some .ge ∧ (s.passes .ge = true ↔ n = v)) ∧
    (Cond.ofBits 11 = some .lt ∧ (s.passes .lt = true ↔ n ≠ v)) ∧
    (Cond.ofBits 12 = some .gt ∧ (s.passes .gt = true ↔ z = false ∧ n = v)) ∧
    (Cond.ofBits 13 = some .le ∧ (s.passes .le = true ↔ z = true ∨ n ≠ v)) ∧
    (Cond.ofBits 14 = some .al ∧ s.passes .al = true) ∧
    (Cond.ofBits 15 = none ∧
      ∀ w : Word, w.extractLsb' 28 4 = 15 → decode (.arm w) = .error .condition1111)

/-- An instruction whose condition fails does nothing but go on (R183): no register, flag, memory or
special register changes, whatever the instruction, its registers and its exceptions. -/
def Obligations.FailedConditionDoesNothing : Prop :=
  ∀ (i : Instr) (c : Cond) (s : State), Instr.cond i = some c → s.passes c = false →
    ∃ t, exec i s = .next t ∧ t.pc = s.pc + s.len ∧ t.cpsr = s.cpsr ∧ OnlyRegisters [] s t

/-- An instruction whose condition passes and whose registers break a restriction of R197 or R206 is refused
by name. For every constructor of Instr the restrictions are spelled out: the form is allowed exactly when
what is listed holds, and the instructions listed last have none. That an UNPREDICTABLE form refuses, and does
so before a coprocessor is offered it, is the model's choice (log 13); the forms with the base written back
among them are log 15. -/
def Obligations.RestrictedRegistersRefused : Prop :=
  (∀ (i : Instr) (s : State) (r : Restriction), (∀ c, Instr.cond i = some c → s.passes c = true) →
    i.broken = some r → exec i s = .refused (.unpredictable r)) ∧
  (∀ (c : Cond) (sf : Bool) (rn rd rs rm : Reg) (sh : ShiftType),
    let op := Operand2.shiftReg sh rs rm
    (∀ i ∈ [Instr.armAnd c sf rn rd op, .armEor c sf rn rd op, .armSub c sf rn rd op, .armRsb c sf rn rd op,
        .armAdd c sf rn rd op, .armAdc c sf rn rd op, .armSbc c sf rn rd op, .armRsc c sf rn rd op,
        .armOrr c sf rn rd op, .armBic c sf rn rd op],
      i.broken = none ↔ rn ≠ 15 ∧ rd ≠ 15 ∧ rs ≠ 15 ∧ rm ≠ 15) ∧
    (∀ i ∈ [Instr.armTst c rn op, .armTeq c rn op, .armCmp c rn op, .armCmn c rn op],
      i.broken = none ↔ rn ≠ 15 ∧ rs ≠ 15 ∧ rm ≠ 15) ∧
    ∀ i ∈ [Instr.armMov c sf rd op, .armMvn c sf rd op], i.broken = none ↔ rd ≠ 15 ∧ rs ≠ 15 ∧ rm ≠ 15) ∧
  (∀ (c : Cond) (sf : Bool) (rn rd : Reg) (op : Operand2), (∀ sh rs rm, op ≠ .shiftReg sh rs rm) →
    ∀ i ∈ [Instr.armAnd c sf rn rd op, .armEor c sf rn rd op, .armSub c sf rn rd op, .armRsb c sf rn rd op,
        .armAdd c sf rn rd op, .armAdc c sf rn rd op, .armSbc c sf rn rd op, .armRsc c sf rn rd op,
        .armOrr c sf rn rd op, .armBic c sf rn rd op, .armTst c rn op, .armTeq c rn op, .armCmp c rn op,
        .armCmn c rn op, .armMov c sf rd op, .armMvn c sf rd op], i.broken = none) ∧
  (∀ (c : Cond) (sf : Bool) (rd rn rs rm hi lo : Reg),
    ((Instr.armMul c sf rd rs rm).broken = none ↔ rd ≠ 15 ∧ rs ≠ 15 ∧ rm ≠ 15 ∧ rd ≠ rm) ∧
    ((Instr.armMla c sf rd rn rs rm).broken = none ↔ rd ≠ 15 ∧ rn ≠ 15 ∧ rs ≠ 15 ∧ rm ≠ 15 ∧ rd ≠ rm) ∧
    (∀ i ∈ [Instr.armUmull c sf hi lo rs rm, .armUmlal c sf hi lo rs rm, .armSmull c sf hi lo rs rm,
        .armSmlal c sf hi lo rs rm],
      i.broken = none ↔ hi ≠ 15 ∧ lo ≠ 15 ∧ rs ≠ 15 ∧ rm ≠ 15 ∧ hi ≠ lo ∧ hi ≠ rm ∧ lo ≠ rm) ∧
    ∀ i ∈ [Instr.armSwp c rn rd rm, .armSwpb c rn rd rm],
      i.broken = none ↔ rn ≠ 15 ∧ rd ≠ 15 ∧ rm ≠ 15 ∧ rn ≠ rm ∧ rn ≠ rd) ∧
  (∀ (c : Cond) (sp : Bool) (mask : BitVec 4) (r : Reg) (o1 o2 : BitVec 3) (crn crm cp : BitVec 4),
    ∀ i ∈ [Instr.armMrs c sp r, .armMsrReg c sp mask r, .armBx c r, .armMcr c o1 crn r cp o2 crm],
      i.broken = none ↔ r ≠ 15) ∧
  (∀ (c : Cond) (index : Index) (up : Bool) (rn rd : Reg) (off : Offset2),
    let allowed := fun wb : Prop => (wb → rn ≠ 15 ∧ rd ≠ rn) ∧
      ∀ sh amount rm, off = .reg sh amount rm → rm ≠ 15 ∧ (wb → rm ≠ rn)
    (∀ i ∈ [Instr.armLdr c index up rn rd off, .armStr c index up rn rd off],
      i.broken = none ↔ allowed (index ≠ .offset)) ∧
    (∀ i ∈ [Instr.armLdrb c index up rn rd off, .armStrb c index up rn rd off],
      i.broken = none ↔ rd ≠ 15 ∧ allowed (index ≠ .offset)) ∧
    ∀ i ∈ [Instr.armLdrt c up rn rd off, .armStrt c up rn rd off, .armLdrbt c up rn rd off,
        .armStrbt c up rn rd off], i.broken = none ↔ rd ≠ 15 ∧ allowed True) ∧
  (∀ (c : Cond) (index : Index) (up : Bool) (rn rd : Reg) (off : Offset3),
    ∀ i ∈ [Instr.armStrh c index up rn rd off, .armLdrh c index up rn rd off, .armLdrsb c index up rn rd off,
        .armLdrsh c index up rn rd off],
      i.broken = none ↔ rd ≠ 15 ∧ (index ≠ .offset → rn ≠ 15 ∧ rd ≠ rn) ∧
        ∀ rm, off = .reg rm → rm ≠ 15 ∧ (index ≠ .offset → rm ≠ rn)) ∧
  (∀ (c : Cond) (sf wb : Bool) (rn : Reg) (list : BitVec 16),
    (∀ i ∈ [Instr.armLdmia c sf wb rn list, .armLdmib c sf wb rn list, .armLdmda c sf wb rn list,
        .armLdmdb c sf wb rn list],
      i.broken = none ↔ list ≠ 0 ∧ rn ≠ 15 ∧ ¬ (sf = true ∧ wb = true ∧ list.getLsbD 15 = false) ∧
        ¬ (wb = true ∧ rn ∈ listedRegs list)) ∧
    ∀ i ∈ [Instr.armStmia c sf wb rn list, .armStmib c sf wb rn list, .armStmda c sf wb rn list,
        .armStmdb c sf wb rn list],
      i.broken = none ↔ list ≠ 0 ∧ rn ≠ 15 ∧ ¬ (sf = true ∧ wb = true) ∧
        (wb = true → rn ∈ listedRegs list → (listedRegs list).head? = some rn)) ∧
  (∀ (c : Cond) (p up n wb : Bool) (rn : Reg) (crd cp : BitVec 4) (off : BitVec 8),
    ∀ i ∈ [Instr.armLdc c p up n wb rn crd cp off, .armStc c p up n wb rn crd cp off],
      i.broken = none ↔ ¬ (wb = true ∧ rn = 15) ∧ ¬ (p = false ∧ wb = false ∧ up = false)) ∧
  (∀ (rs rd rb : LowReg) (rm hd : Reg) (extra : Bool) (list : BitVec 8),
    ((Instr.thumbMul rs rd).broken = none ↔ rs ≠ rd) ∧
    (∀ i ∈ [Instr.thumbAddHi rm hd, .thumbMovHi rm hd], i.broken = none ↔ 8 ≤ rm.toNat ∨ 8 ≤ hd.toNat) ∧
    ((Instr.thumbCmpHi rm hd).broken = none ↔ (8 ≤ rm.toNat ∨ 8 ≤ hd.toNat) ∧ hd ≠ 15) ∧
    (∀ i ∈ [Instr.thumbPush extra list, .thumbPop extra list], i.broken = none ↔ extra = true ∨ list ≠ 0) ∧
    ((Instr.thumbStmia rb list).broken = none ↔
      list ≠ 0 ∧ (rb.reg ∈ listedRegs list → (listedRegs list).head? = some rb.reg)) ∧
    ((Instr.thumbLdmia rb list).broken = none ↔ list ≠ 0 ∧ rb.reg ∉ listedRegs list)) ∧
  ∀ i : Instr, Instr.unrestricted i = true → i.broken = none

/-! ## Operand 2 and data processing -/

/-- The shift operations on every value and amount, in arithmetic of naturals and integers, and the shift field's
codes (R186). -/
def Obligations.ShiftOperations : Prop :=
  ∀ (x : Word) (n : Nat) (c : Bool),
    (lsl x 0 c = ⟨x, c⟩ ∧ lsr x 0 c = ⟨x, c⟩ ∧ asr x 0 c = ⟨x, c⟩ ∧ ror x 0 c = ⟨x, c⟩) ∧
    (1 ≤ n → n ≤ 31 → (lsl x n c).value.toNat = x.toNat * 2 ^ n % 2 ^ 32 ∧
      (lsl x n c).carry = x.getLsbD (32 - n)) ∧
    (lsl x 32 c = ⟨0, x.getLsbD 0⟩) ∧ (32 < n → lsl x n c = ⟨0, false⟩) ∧
    (1 ≤ n → n ≤ 31 → (lsr x n c).value.toNat = x.toNat / 2 ^ n ∧ (lsr x n c).carry = x.getLsbD (n - 1)) ∧
    (lsr x 32 c = ⟨0, x.getLsbD 31⟩) ∧ (32 < n → lsr x n c = ⟨0, false⟩) ∧
    (1 ≤ n → n ≤ 31 → (asr x n c).value.toInt = x.toInt / 2 ^ n ∧ (asr x n c).carry = x.getLsbD (n - 1)) ∧
    (32 ≤ n → asr x n c = ⟨if x.getLsbD 31 then 0xffffffff else 0, x.getLsbD 31⟩) ∧
    (1 ≤ n → n % 32 = 0 → ror x n c = ⟨x, x.getLsbD 31⟩) ∧
    (n % 32 ≠ 0 →
      (ror x n c).value = (x >>> (n % 32)) ||| (x <<< (32 - n % 32)) ∧
      (ror x n c).carry = x.getLsbD (n % 32 - 1)) ∧
    ((rrx x c).value.toNat = (if c then 2 ^ 31 else 0) + x.toNat / 2 ∧ (rrx x c).carry = x.getLsbD 0) ∧
    (ShiftType.ofBits 0 = .lsl ∧ ShiftType.ofBits 1 = .lsr ∧ ShiftType.ofBits 2 = .asr ∧
      ShiftType.ofBits 3 = .ror)

/-- The three forms of operand 2 (R185, R187, R188): the rotated constant, whose carry is C for rotate 0;
the immediate shifts, where 0 means 32 for LSR and ASR and RRX for ROR; the shift by bits [7:0] of Rs. -/
def Obligations.OperandTwoForms : Prop :=
  ∀ (s : State),
    (∀ (rot : BitVec 4) (imm : BitVec 8),
      let v : Word := (imm.zeroExtend 32 >>> (2 * rot.toNat)) ||| (imm.zeroExtend 32 <<< (32 - 2 * rot.toNat))
      s.operand2 (.imm rot imm) = if rot = 0 then ⟨imm.zeroExtend 32, s.flagC⟩ else ⟨v, v.getLsbD 31⟩) ∧
    (∀ (amount : BitVec 5) (rm : Reg),
      s.operand2 (.shiftImm .lsl amount rm) = lsl (s.reg rm) amount.toNat s.flagC ∧
      s.operand2 (.shiftImm .lsr amount rm) =
        lsr (s.reg rm) (if amount = 0 then 32 else amount.toNat) s.flagC ∧
      s.operand2 (.shiftImm .asr amount rm) =
        asr (s.reg rm) (if amount = 0 then 32 else amount.toNat) s.flagC ∧
      s.operand2 (.shiftImm .ror amount rm) =
        if amount = 0 then rrx (s.reg rm) s.flagC else ror (s.reg rm) amount.toNat s.flagC) ∧
    ∀ (rs rm : Reg),
      let n := (s.reg rs).toNat % 256
      s.operand2 (.shiftReg .lsl rs rm) = lsl (s.reg rm) n s.flagC ∧
      s.operand2 (.shiftReg .lsr rs rm) = lsr (s.reg rm) n s.flagC ∧
      s.operand2 (.shiftReg .asr rs rm) = asr (s.reg rm) n s.flagC ∧
      s.operand2 (.shiftReg .ror rs rm) = ror (s.reg rm) n s.flagC

/-- AND, EOR, ORR, BIC, MOV, MVN with Rd other than r15 (R240, R241, R244, R245, R256 to R259): the result
in Rd, with S = 1 N and Z of it, C the shifter's carry and V kept, nothing else. -/
def Obligations.ArmLogicalResult : Prop :=
  ∀ (s : State) (c : Cond) (sf : Bool) (rn rd : Reg) (op2 : Operand2), s.passes c = true → rd ≠ 15 →
    let a := s.reg rn
    let b := (s.operand2 op2).value
    ∀ p ∈ [(Instr.armAnd c sf rn rd op2, a &&& b), (.armEor c sf rn rd op2, a ^^^ b),
        (.armOrr c sf rn rd op2, a ||| b), (.armBic c sf rn rd op2, a &&& ~~~b),
        (.armMov c sf rd op2, b), (.armMvn c sf rd op2, ~~~b)],
      p.1.broken = none →
      ∃ t, exec p.1 s = .next t ∧ LeavesResult s t sf rd p.2 (s.operand2 op2).carry s.flagV

/-- ADD, ADC, SUB, SBC, RSB, RSC with Rd other than r15 (R240, R241, R246 to R251): the result in Rd, with
S = 1 N and Z of it, C the carry of the unsigned sum or no borrow, V when the signed result does not fit,
nothing else. -/
def Obligations.ArmArithmeticResult : Prop :=
  ∀ (s : State) (c : Cond) (sf : Bool) (rn rd : Reg) (op2 : Operand2), s.passes c = true → rd ≠ 15 →
    let a := s.reg rn
    let b := (s.operand2 op2).value
    let k := s.flagC.toNat
    let borrow := (!s.flagC).toNat
    ∀ p ∈ [(Instr.armAdd c sf rn rd op2, a.toInt + b.toInt, decide (2 ^ 32 ≤ a.toNat + b.toNat)),
        (.armAdc c sf rn rd op2, a.toInt + b.toInt + k, decide (2 ^ 32 ≤ a.toNat + b.toNat + k)),
        (.armSub c sf rn rd op2, a.toInt - b.toInt, decide (b.toNat ≤ a.toNat)),
        (.armSbc c sf rn rd op2, a.toInt - b.toInt - borrow, decide (b.toNat + borrow ≤ a.toNat)),
        (.armRsb c sf rn rd op2, b.toInt - a.toInt, decide (a.toNat ≤ b.toNat)),
        (.armRsc c sf rn rd op2, b.toInt - a.toInt - borrow, decide (a.toNat + borrow ≤ b.toNat))],
      p.1.broken = none →
      ∃ t, exec p.1 s = .next t ∧
        LeavesResult s t sf rd (BitVec.ofInt 32 p.2.1) p.2.2 (overflows p.2.1)

/-- TST, TEQ, CMP, CMN (R240, R241, R252 to R255): the flags of AND, EOR, SUB and ADD, nothing else. -/
def Obligations.ArmCompareFlags : Prop :=
  ∀ (s : State) (c : Cond) (rn : Reg) (op2 : Operand2), s.passes c = true →
    let a := s.reg rn
    let b := (s.operand2 op2).value
    let k := (s.operand2 op2).carry
    ∀ p ∈ [(Instr.armTst c rn op2, a &&& b, k, s.flagV), (.armTeq c rn op2, a ^^^ b, k, s.flagV),
        (.armCmp c rn op2, a - b, decide (b.toNat ≤ a.toNat), overflows (a.toInt - b.toInt)),
        (.armCmn c rn op2, a + b, decide (2 ^ 32 ≤ a.toNat + b.toNat), overflows (a.toInt + b.toInt))],
      p.1.broken = none →
      ∃ t, exec p.1 s = .next t ∧ LeavesFlags s t p.2.1 p.2.2.1 p.2.2.2

/-- A destination-writing data-processing instruction with Rd = r15 (R242, R243): with S = 0 a branch to the
result, whose bits [1:0] (bit 0 in Thumb state) are ignored, CPSR kept; with S = 1 the return from an
exception, CPSR from the SPSR and PC from the result together, the computed flags dropped. Without an SPSR
(User, System) S = 1 is refused (R37); a saved mode that is none of the seven leaves the machine stuck
(R35). The refusal and the stuck state are logs 34 and 33; the ignored bits log 44. -/
def Obligations.ArmResultToPc : Prop :=
  ∀ (s : State) (c : Cond) (rn : Reg) (op2 : Operand2), s.passes c = true →
    (∀ p ∈ s.dataProcResults c false rn 15 op2, p.1.broken = none →
      ∃ t, exec p.1 s = .next t ∧ t.pc = p.2 &&& (if s.thumb then 0xfffffffe else 0xfffffffc) ∧
        t.pipe = [] ∧ t.cpsr = s.cpsr ∧ OnlyCore [] s t) ∧
    ∀ p ∈ s.dataProcResults c true rn 15 op2, p.1.broken = none →
      match s.spsrOf s.mode with
      | none => exec p.1 s = .refused .noSpsr
      | some psr =>
        if legalMode psr then
          ∃ t, exec p.1 s = .next t ∧ t.cpsr = psr ∧ t.pipe = [] ∧
            t.pc = p.2 &&& (if psr.getLsbD 5 then 0xfffffffe else 0xfffffffc) ∧ OnlyCore [] s t
        else exec p.1 s = .next { s with stuck := some .illegalMode }

/-! ## Multiplies and status registers -/

/-- MUL and MLA of ARM state and MUL of Thumb state (R270, R271, R276, R416): the low 32 bits of the product
or sum in Rd; with S = 1, and in Thumb state, N and Z of it and V kept (C is open), with S = 0 no flag; nothing
else. -/
def Obligations.MultiplyResult : Prop :=
  ∀ (s : State) (c : Cond) (sf : Bool) (rd rn rs rm : Reg) (ls ld : LowReg), s.passes c = true →
    ∀ p ∈ [(Instr.armMul c sf rd rs rm, sf, rd, (s.reg rm).toNat * (s.reg rs).toNat),
        (.armMla c sf rd rn rs rm, sf, rd, (s.reg rm).toNat * (s.reg rs).toNat + (s.reg rn).toNat),
        (.thumbMul ls ld, true, ld.reg, (s.reg ld.reg).toNat * (s.reg ls.reg).toNat)],
      p.1.broken = none →
      let d := p.2.2.1
      ∃ t, exec p.1 s = .next t ∧ t.reg d = BitVec.ofNat 32 p.2.2.2 ∧ t.pc = s.pc + s.len ∧
        OnlyRegisters [phys s.mode d] s t ∧
        if p.2.1 then t.flagN = (t.reg d).getLsbD 31 ∧ t.flagZ = (t.reg d == 0) ∧ t.flagV = s.flagV
        else t.cpsr = s.cpsr

/-- UMULL, UMLAL, SMULL, SMLAL (R272 to R276): RdHi:RdLo is the exact product, or the sum modulo 2^64, of
the operands as unsigned or signed integers; with S = 1 N is bit 63 and Z says the 64 bits are zero (C and V
are open), with S = 0 no flag; nothing else. -/
def Obligations.LongMultiplyResult : Prop :=
  ∀ (s : State) (c : Cond) (sf : Bool) (hi lo rs rm : Reg), s.passes c = true →
    let old : BitVec 64 := s.reg hi ++ s.reg lo
    ∀ p ∈ [(Instr.armUmull c sf hi lo rs rm, ((s.reg rm).toNat * (s.reg rs).toNat : Int)),
        (.armUmlal c sf hi lo rs rm, ((s.reg rm).toNat * (s.reg rs).toNat + old.toNat : Int)),
        (.armSmull c sf hi lo rs rm, (s.reg rm).toInt * (s.reg rs).toInt),
        (.armSmlal c sf hi lo rs rm, (s.reg rm).toInt * (s.reg rs).toInt + old.toInt)],
      p.1.broken = none →
      ∃ t, exec p.1 s = .next t ∧ t.reg hi ++ t.reg lo = BitVec.ofInt 64 p.2 ∧ t.pc = s.pc + s.len ∧
        OnlyRegisters [phys s.mode hi, phys s.mode lo] s t ∧
        if sf then t.flagN = (t.reg hi).getLsbD 31 ∧ t.flagZ = (t.reg hi == 0 && t.reg lo == 0)
        else t.cpsr = s.cpsr

/-- MRS (R280): bits [31:28] and [7:0] of the CPSR, or of the current mode's SPSR, in Rd (bits [27:8] are
open, R36); from an SPSR in User or System mode it is refused (R37); nothing else changes. The refusal is
log 34. -/
def Obligations.MrsReadsStatus : Prop :=
  ∀ (s : State) (c : Cond) (rd : Reg), s.passes c = true → rd ≠ 15 →
    (∀ sp psr, (if sp then s.spsrOf s.mode else some s.cpsr) = some psr →
      ∃ t, exec (.armMrs c sp rd) s = .next t ∧
        (t.reg rd).extractLsb' 28 4 = psr.extractLsb' 28 4 ∧
        (t.reg rd).extractLsb' 0 8 = psr.extractLsb' 0 8 ∧ t.pc = s.pc + s.len ∧ t.cpsr = s.cpsr ∧
        OnlyRegisters [phys s.mode rd] s t) ∧
    (s.spsrOf s.mode = none → exec (.armMrs c true rd) s = .refused .noSpsr)

/-- MSR to the CPSR (R283): each byte of the CPSR the mask selects takes the operand's, in User mode the
flags byte only; when the control byte is written, the operand keeps T and names a legal mode. A change of T
(R33) or an illegal mode (R35) leaves the machine stuck and nothing else changed. No debugger is attached.
The stuck state and the reserved bits, stored as written, are logs 33 and 17. -/
def Obligations.MsrWritesCpsr : Prop :=
  ∀ (s : State) (c : Cond) (mask : BitVec 4) (rm : Reg) (rot : BitVec 4) (imm : BitVec 8),
    s.passes c = true → s.dbg.ack = false → legalMode s.cpsr = true →
    let writes := fun j : Nat => mask.getLsbD j && (s.privileged || j == 3)
    ∀ p ∈ [(Instr.armMsrReg c false mask rm, s.reg rm),
        (.armMsrImm c false mask rot imm, (imm.zeroExtend 32).rotateRight (2 * rot.toNat))],
      p.1.broken = none →
      if writes 0 = true ∧ p.2.getLsbD 5 ≠ s.cpsr.getLsbD 5 then
        exec p.1 s = .next { s with stuck := some .stateBitChanged }
      else if writes 0 = true ∧ legalMode p.2 = false then
        exec p.1 s = .next { s with stuck := some .illegalMode }
      else
        ∃ t, exec p.1 s = .next t ∧ t.pc = s.pc + s.len ∧ OnlyCore [] s t ∧
          ∀ j < 4, t.cpsr.extractLsb' (8 * j) 8 =
            if writes j then p.2.extractLsb' (8 * j) 8 else s.cpsr.extractLsb' (8 * j) 8

/-- MSR to the SPSR of the current mode (R283): each byte the mask selects takes the operand's, whatever
mode it names (R35); no other status register, no general register and no byte of memory changes; in User
and System mode it is refused (R37). The refusal and the reserved bits are logs 34 and 17. -/
def Obligations.MsrWritesSpsr : Prop :=
  ∀ (s : State) (c : Cond) (mask : BitVec 4) (rm : Reg) (rot : BitVec 4) (imm : BitVec 8),
    s.passes c = true →
    ∀ p ∈ [(Instr.armMsrReg c true mask rm, s.reg rm),
        (.armMsrImm c true mask rot imm, (imm.zeroExtend 32).rotateRight (2 * rot.toNat))],
      p.1.broken = none →
      match s.spsrOf s.mode with
      | none => exec p.1 s = .refused .noSpsr
      | some old =>
        ∃ t new, exec p.1 s = .next t ∧ t.pc = s.pc + s.len ∧ t.cpsr = s.cpsr ∧ t.regs = s.regs ∧
          SameOutside s t ∧ t.spsrOf s.mode = some new ∧
          (∀ m, m ≠ s.mode → t.spsrOf m = s.spsrOf m) ∧
          ∀ j < 4, new.extractLsb' (8 * j) 8 =
            if mask.getLsbD j then p.2.extractLsb' (8 * j) 8 else old.extractLsb' (8 * j) 8

/-- Reset is the only exit from the states an illegal mode (R35) or a change of T (R33) leaves (R574): no
step executes an instruction there, no event but the reset input ends the state, and that one does. The
stuck state is log 33, the events are log 5. -/
def Obligations.StuckUntilReset : Prop :=
  ∀ (s : State) (k : Stuck), s.stuck = some k →
    (s.schedule = [] → ∀ t, step s ≠ .next t) ∧
    (∀ e rest, s.schedule = e :: rest → (∀ v a pa n, e ≠ .reset v a pa n) → ∀ t, step s = .next t →
      t.stuck = some k ∧ t.regs = s.regs ∧ t.cpsr = s.cpsr ∧ t.pc = s.pc) ∧
    ∀ v amid pa n rest, s.schedule = .reset v amid pa n :: rest → ∃ t, step s = .next t ∧ t.stuck = none

/-! ## Branches -/

/-- B and BL of ARM state (R193, R290, R291): PC to iaddr + 8 plus four times the signed offset, BL with
iaddr + 4 in r14 of the current mode; no flag, no state change, no memory. -/
def Obligations.ArmBranch : Prop :=
  ∀ (s : State) (c : Cond) (offset : BitVec 24), s.passes c = true → s.thumb = false →
    alignPc false s.pc = s.pc →
    let target := s.pc + 8 + BitVec.ofInt 32 (4 * offset.toInt)
    (∃ t, exec (.armB c offset) s = .next t ∧ t.pc = target ∧ t.pipe = [] ∧ t.cpsr = s.cpsr ∧
      OnlyRegisters [] s t) ∧
    ∃ t, exec (.armBl c offset) s = .next t ∧ t.pc = target ∧ t.pipe = [] ∧ t.cpsr = s.cpsr ∧
      t.reg 14 = s.pc + 4 ∧ OnlyRegisters [phys s.mode 14] s t

/-- BX of both states (R292, R429): bit 0 of the operand goes to T; to Thumb state the PC is the operand
without bit 0, to ARM state it is the operand; with bits [1:0] = b10 it is refused. But of the Thumb BX PC in
debug state, which leaves Thumb state from any PC (R549), bit 1 is ignored. Every other bit of the CPSR is
kept, no register and no byte of memory changes. The refusal and the debug state's form are log 42. -/
def Obligations.BranchExchange : Prop :=
  ∀ (s : State) (c : Cond) (rm : Reg),
    let v := s.reg rm
    ∀ i, ((i = .armBx c rm ∧ s.passes c = true ∧ rm ≠ 15) ∨ i = .thumbBx rm) →
      if v.getLsbD 0 = false ∧ v.getLsbD 1 = true ∧ ¬ (s.dbg.ack = true ∧ i = .thumbBx 15) then
        exec i s = .refused .bxMisaligned
      else
        ∃ t, exec i s = .next t ∧ t.thumb = v.getLsbD 0 ∧
          t.pc = v &&& (if v.getLsbD 0 then 0xfffffffe else 0xfffffffc) ∧ t.pipe = [] ∧
          (∀ j, j ≠ 5 → t.cpsr.getLsbD j = s.cpsr.getLsbD j) ∧ OnlyCore [] s t

/-- B and B<cond> of Thumb state (R475, R481): their encodings; PC to iaddr + 4 plus twice the signed offset,
the conditional one when its condition passes, else on to iaddr + 2; no register, no flag, no link, the state
unchanged, no memory. The codes b1110 and b1111 are undefined and SWI. -/
def Obligations.ThumbBranch : Prop :=
  ∀ (s : State) (c : Cond) (off8 : BitVec 8) (off11 : BitVec 11),
    (∀ k, k ≠ 14 → Cond.ofBits k = some c →
      decode (.thumb (0b1101#4 ++ k ++ off8)) = .ok (.thumbBCond c off8)) ∧
    decode (.thumb (0b11011110#8 ++ off8)) = .ok (.thumbUndefDe off8) ∧
    decode (.thumb (0b11011111#8 ++ off8)) = .ok (.thumbSwi off8) ∧
    decode (.thumb (0b11100#5 ++ off11)) = .ok (.thumbB off11) ∧
    (s.thumb = true → alignPc true s.pc = s.pc →
      (s.passes c = true → ∃ t, exec (.thumbBCond c off8) s = .next t ∧
        t.pc = s.pc + 4 + BitVec.ofInt 32 (2 * off8.toInt) ∧ t.pipe = [] ∧ t.cpsr = s.cpsr ∧
        OnlyRegisters [] s t) ∧
      (s.passes c = false → ∃ t, exec (.thumbBCond c off8) s = .next t ∧ t.pc = s.pc + 2 ∧ t.cpsr = s.cpsr ∧
        OnlyRegisters [] s t) ∧
      ∃ t, exec (.thumbB off11) s = .next t ∧ t.pc = s.pc + 4 + BitVec.ofInt 32 (2 * off11.toInt) ∧
        t.pipe = [] ∧ t.cpsr = s.cpsr ∧ OnlyRegisters [] s t)

/-- The two halves of Thumb BL one after the other (R482 to R484): from p the pair goes to
p + 4 + (sext(hi) << 12) + (lo << 1) with (p + 4) OR 1 in r14, and only r14 and the PC change. The suffix alone,
whatever r14 holds (R483, R484): to r14 + (lo << 1), bit 0 clear, in Thumb state, with (iaddr + 2) OR 1 in r14,
and only r14 and the PC change. -/
def Obligations.ThumbBranchLink : Prop :=
  (∀ (s : State) (lo : BitVec 11), s.thumb = true →
    ∃ u, exec (.thumbBlLow lo) s = .next u ∧
      u.pc = (s.reg 14 + BitVec.ofNat 32 (2 * lo.toNat)) &&& 0xfffffffe ∧ u.reg 14 = (s.pc + 2) ||| 1 ∧
      u.cpsr = s.cpsr ∧ u.pipe = [] ∧ OnlyRegisters [phys s.mode 14] s u) ∧
  ∀ (s : State) (hi lo : BitVec 11), s.thumb = true → alignPc true s.pc = s.pc →
    ∃ t u, exec (.thumbBlHigh hi) s = .next t ∧ exec (.thumbBlLow lo) t = .next u ∧
      t.reg 14 = s.pc + 4 + BitVec.ofInt 32 (4096 * hi.toInt) ∧ t.pc = s.pc + 2 ∧ t.cpsr = s.cpsr ∧
      OnlyRegisters [phys s.mode 14] s t ∧
      u.pc = s.pc + 4 + BitVec.ofInt 32 (4096 * hi.toInt + 2 * lo.toNat) ∧ u.reg 14 = (s.pc + 4) ||| 1 ∧
      u.cpsr = s.cpsr ∧ OnlyRegisters [phys s.mode 14] s u

/-! ## Exceptions -/

/-- SWI of both states (R352, R480, R511): Supervisor mode, the next instruction's address in r14_svc, the
CPSR in SPSR_svc, T clear, I set, the PC at the vector; the comment field has no effect, nothing else changes. -/
def Obligations.SoftwareInterruptEntry : Prop :=
  ∀ (s : State) (c : Cond) (imm24 : BitVec 24) (imm8 : BitVec 8),
    ∀ i, ((i = .armSwi c imm24 ∧ s.passes c = true) ∨ i = .thumbSwi imm8) →
      ∃ t, exec i s = .next t ∧ Entered .softwareInterrupt (s.pc + s.len) s t ∧ SameOutside s t

/-- The undefined encodings of both states (R196, R206, R485, R510): Undefined mode, the next instruction's
address in r14_und, the CPSR in SPSR_und, T clear, I set, the PC at the vector; nothing else changes. -/
def Obligations.UndefinedInstructionEntry : Prop :=
  ∀ (s : State) (c : Cond) (hi20 lo20 : BitVec 20) (lo4 : BitVec 4) (r : Bool) (lo12 : BitVec 12)
    (lo8 : BitVec 8) (lo11 : BitVec 11),
    ∀ i, ((s.passes c = true ∧ (i = .armUndefMedia c hi20 lo4 ∨ i = .armUndefMsr c r lo20)) ∨
        i = .thumbUndefB lo12 ∨ i = .thumbUndefDe lo8 ∨ i = .thumbUndefE8 lo11) →
      ∃ t, exec i s = .next t ∧ Entered .undefined (s.pc + s.len) s t ∧ SameOutside s t

/-- Interrupts at an instruction boundary (R506, R520, R521): FIQ when its line is LOW and F is clear; else
IRQ when its line is LOW and I is clear; r14 of the mode is the next instruction's address + 4; no
instruction runs and nothing else changes. The run has no debugger. When an input is seen is the schedule's
choice (log 5). -/
def Obligations.InterruptEntry : Prop :=
  ∀ s : State, s.schedule = [] → s.stuck = none → s.dbg.ack = false → s.pins.dbgen = false →
    s.offTop = false →
    let fiq := s.pins.fiq && !s.cpsr.getLsbD 6
    let irq := s.pins.irq && !s.cpsr.getLsbD 7
    (fiq = true → ∃ t, step s = .next t ∧ Entered .fiq (s.pc + 4) s t ∧ SameOutside s t) ∧
    (fiq = false → irq = true → ∃ t, step s = .next t ∧ Entered .irq (s.pc + 4) s t ∧ SameOutside s t)

/-- Prefetch Abort (R137, R512): when the instruction at pc was fetched with an abort, the step enters Abort
mode with r14_abt = iaddr + 4 whatever its condition; FAR and the other CP15 registers are kept, and the FSR
is kept or takes the fault's codes as the platform has it (log 29). -/
def Obligations.PrefetchAbortEntry : Prop :=
  ∀ (s : State) (i : AbortInfo) (mark : Bool) (rest : List Fetched), s.schedule = [] → s.stuck = none →
    s.dbg.ack = false → s.pins.dbgen = false → s.offTop = false → s.interrupt = none →
    s.prefetch.pipe = ⟨.abort i, mark⟩ :: rest → i.dbg = false →
    ∃ t, step s = .next t ∧ Entered .prefetchAbort (s.pc + 4) s t ∧
      t.cp15 = { s.cp15 with fsr := if s.platform.fsrOnPabt then i.domain ++ i.code else s.cp15.fsr } ∧
      t.memsys = s.prefetch.memsys

/-- An exception entry followed by the return the spec gives for it restores the CPSR and the PC: MOVS PC,
r14 after SWI and Undefined Instruction goes on at the next instruction; SUBS PC, r14, #4 after IRQ, FIQ and
Prefetch Abort and SUBS PC, r14, #8 after Data Abort go back to the instruction (R501, R503, R505, R243). Of
the general registers the pair changes r14 of the exception's mode only. -/
def Obligations.ReturnRestoresProgram : Prop :=
  ∀ s : State, legalMode s.cpsr = true → alignPc s.thumb s.pc = s.pc →
    let movs := Instr.armMov .al true 15 (.shiftImm .lsl 0 14)
    let subs := fun k => Instr.armSub .al true 14 15 (.imm 0 k)
    ∀ p ∈ [(Exc.softwareInterrupt, s.pc + s.len, movs, s.pc + s.len),
        (.undefined, s.pc + s.len, movs, s.pc + s.len), (.irq, s.pc + 4, subs 4, s.pc),
        (.fiq, s.pc + 4, subs 4, s.pc), (.prefetchAbort, s.pc + 4, subs 4, s.pc),
        (.dataAbort, s.pc + 8, subs 8, s.pc)],
      ∃ t, exec p.2.2.1 (s.enter p.1 p.2.1) = .next t ∧ t.cpsr = s.cpsr ∧ t.pc = p.2.2.2 ∧
        SameRegsBut [phys p.1.mode 14] s t ∧ ∀ a, t.byteAt a = s.byteAt a

/-! ## Loads and stores of one datum -/

/-- LDR, LDRB, LDRT, LDRBT, LDRH, LDRSB, LDRSH and the ten Thumb loads (R300, R301, R303, R305, R307, R309,
R311, R312, R314, R315, R317, R319, R450, R451, R454, R455, R457 to R459, R461, R463, R465, R467), when the
access algorithm lets the access through on a quiet machine: the datum at the physical address, rotated,
zero-extended or sign-extended, in Rd, or a branch to it when Rd is r15; the base written back; no flag, no
other register and no byte of memory changes. That LDRH and LDRSH of both states complete at an odd address with
A = 0 is the model's choice, log 16, where R97, R316 and R450 refuse them; the value they load is open, so not
stated. With write-back Rd is not the base (R318), log 15. -/
def Obligations.LoadsReadMemory : Prop :=
  ∀ (s : State) (p : Transfer) (r : Route), s.IsLoad p → s.Quiet → s.Reaches .read p.size p.priv p.addr r →
    let v := p.value (s.datum .read p.size p.addr r)
    ∃ t, exec p.instr s = .next t ∧ (∀ rn x, p.base = some (rn, x) → t.reg rn = x) ∧
      (if p.rd = 15 then t.pc = v &&& (if s.thumb then 0xfffffffe else 0xfffffffc) ∧ t.pipe = []
        else t.pc = s.pc + s.len ∧ (p.oddHalf = false → t.reg p.rd = v)) ∧
      OnlyLoad ((if p.rd = 15 then [] else [phys s.mode p.rd]) ++ p.baseEntry s) s t

/-- STR, STRB, STRT, STRBT, STRH and the seven Thumb stores (R300, R302, R304, R306, R308, R309, R311, R313,
R317, R319, R450, R452, R453, R456, R460, R462, R464, R466), when the access algorithm lets the access
through on a quiet machine: the low byte, halfword or word of Rd (iaddr + 12 for r15) at the physical
address, every other byte of memory as before; the base written back, which is not Rd (R318, log 15); no flag
and no other register changes. STRH and the Thumb STRH at an odd address with alignment checking off are
refused (R97), log 16, but at debug speed, where every store puts Rd on the data bus and memory is as before
(R549). -/
def Obligations.StoresWriteMemory : Prop :=
  ∀ (s : State) (p : Transfer), s.IsStore p →
    let debugSpeed := s.dbg.ack = true ∧ s.dbg.sysSpeed = false
    (debugSpeed → ∃ t, exec p.instr s = .next t ∧ t.memsys = s.memsys ∧
      t.dbg = { s.dbg with scanOut := s.dbg.scanOut ++ [replicated p.size (s.stored p.rd)] }) ∧
    (p.oddHalf = true → s.cp15.alignOn = false → ¬ debugSpeed → exec p.instr s = .refused .oddHalfwordStore) ∧
    ∀ r : Route, p.oddHalf = false → s.Quiet → s.Reaches .write p.size p.priv p.addr r →
      ∃ t, exec p.instr s = .next t ∧ t.pc = s.pc + s.len ∧ (∀ rn x, p.base = some (rn, x) → t.reg rn = x) ∧
        OnlyStore (p.baseEntry s) p.size r.pa (s.stored p.rd) s t

/-- Data Aborts. Of a load or store of one datum that alignment, translation, domain or permission aborts, on
a quiet machine: FSR and FAR take the fault's codes and address, Abort mode is entered with r14_abt =
iaddr + 8, the base is written back, Rd and every byte of memory are as before (R137, R300, R317, R450,
R513). Of an external, unbuffered one that draws ERROR: the same, with the mapping's domain and FS b1000 for
a section, b1010 for a page (R131, R136), or with the MMU off either code and any domain; only the buffered
writes have reached memory. Of STM, STM with ^, PUSH and STMIA, at any of their words, and of LDC and STC:
the base is written back, no other register changes, and memory is as the accesses of R331 in order leave it
(R336, R360, R361, R468, R470). The open domain is log 8, the base of an aborted block log 30. That FAR has
bits [1:0] clear for a word access off a word boundary with A = 0 is the model's choice, log 44. That LDRH and
LDRSH of both states at an odd address with A = 0 make an access, which can abort, is the model's choice, log 16,
where R97 and R316 refuse them, and so is the odd address in FAR, logs 16 and 44. -/
def Obligations.DataAbortOfTransfer : Prop :=
  (∀ (s : State) (p : Transfer) (i : AbortInfo), s.Quiet →
    ((s.IsLoad p ∧ s.Aborts .read p.size p.priv p.addr i) ∨
      (s.IsStore p ∧ s.Aborts .write p.size p.priv p.addr i ∧ (p.oddHalf = true → s.cp15.alignOn = true))) →
    ∃ t, exec p.instr s = .next t ∧ Entered .dataAbort (s.pc + 8) (p.writeBase s) t ∧
      t.cp15 = { s.cp15 with fsr := i.domain ++ i.code, far := i.addr } ∧
      (∀ a, t.byteAt a = s.byteAt a) ∧ SameTestRegs s t ∧ t.cp14 = s.cp14) ∧
  (∀ (s : State) (p : Transfer) (r : Route) (m : MemSys), s.pins.dbgen = false → s.dbg.ack = false →
    ((s.IsLoad p ∧ s.DrawsError .read p.size p.priv p.addr r m ∧
        (s.cp15.cacheOn = false ∨ r.cachable = false)) ∨
      (s.IsStore p ∧ s.DrawsError .write p.size p.priv p.addr r m ∧
        (s.cp15.bufferOn = false ∨ r.bufferable = false) ∧ (p.oddHalf = true → s.cp15.alignOn = true))) →
    ∃ (t : State) (code domain : BitVec 4), exec p.instr s = .next t ∧ Entered .dataAbort (s.pc + 8) (p.writeBase s) t ∧
      t.cp15 = { s.cp15 with fsr := domain ++ code, far := accessMva s.cp15 p.size p.addr } ∧
      (match r.entry with
        | some e => domain = e.domain ∧ code = if e.size = .mb1 then 0b1000 else 0b1010
        | none => code = 0b1000 ∨ code = 0b1010) ∧
      t.memsys.mem = (m.drain s.platform.bigEndian).mem ∧ t.memsys.wbuf = [] ∧ t.cp14 = s.cp14) ∧
  (∀ (s u : State) (p : BlockStore) (b : Block) (i : AbortInfo), s.IsBlockStore p → s.pins.dbgen = false →
    s.dbg.ack = false → s.storeWords .blockWrite s.privileged p.values p.start .empty = (b, u) → b.stop = none →
    b.abort = some i →
    ∃ t, exec p.instr s = .next t ∧ Entered .dataAbort (s.pc + 8) (s.withBase p.rn p.newBase) t ∧
      t.cp15 = { s.cp15 with fsr := i.domain ++ i.code, far := i.addr } ∧ t.memsys = u.memsys ∧
      t.cp14 = s.cp14) ∧
  ∀ (s : State) (c : Cond) (p up n wb : Bool) (rn : Reg) (crd cp : BitVec 4) (off : BitVec 8)
    (r : CoprocReply) (rest : List CoprocReply), s.passes c = true → s.pins.dbgen = false →
    s.dbg.ack = false → s.platform.extCoprocs.getLsbD cp.toNat = true → cp ≠ 14 → cp ≠ 15 →
    s.coproc = r :: rest → r.answer = .ready → (Instr.armLdc c p up n wb rn crd cp off).broken = none →
    let idx := s.indexedBase up rn (BitVec.ofNat 32 (4 * off.toNat))
    let a := if p then idx else s.reg rn
    let opt := if p || wb then none else some off
    let x := State.withBase { s with coproc := rest } rn (if wb then some idx else none)
    ∀ q ∈ [(Instr.armLdc c p up n wb rn crd cp off, x.loadCoproc cp crd n opt (1 + r.more.length) 0 a),
        (.armStc c p up n wb rn crd cp off, x.storeCoproc cp crd n opt (r.first :: r.more) 0 a)],
      ∀ i, q.2.1 = .abort i →
        ∃ t, exec q.1 s = .next t ∧ Entered .dataAbort (s.pc + 8) x t ∧
          t.cp15 = { s.cp15 with fsr := i.domain ++ i.code, far := i.addr } ∧ t.memsys = q.2.2.memsys ∧
          t.calls = q.2.2.calls ∧ t.cp14 = s.cp14

/-- The alignment check (R97, R100, R132): with A set, a data access of a word off a word boundary or of a
halfword at an odd address aborts with FS b0001 or b0011 and the MVA, whether the MMU is on or not; a byte
or a fetch never meets it, and with A clear no access does. Which of the two codes is open (log 8). -/
def Obligations.AlignmentCheck : Prop :=
  ∀ (s : State) (k : Access) (n : Size) (priv : Bool) (va : Word),
    let off := (n = .word ∧ va.toNat % 4 ≠ 0) ∨ (n = .half ∧ va.toNat % 2 ≠ 0)
    (s.cp15.alignOn = true → k ≠ .fetch → off →
      ∃ code domain, s.Aborts k n priv va ⟨code, domain, fcse s.cp15.pid va, false⟩ ∧
        (code = 0b0001 ∨ code = 0b0011)) ∧
    (s.cp15.alignOn = false ∨ k = .fetch ∨ ¬ off → ∀ i, s.Aborts k n priv va i →
      i.code ≠ 0b0001 ∧ i.code ≠ 0b0011)

/-! ## Block transfers -/

/-- LDMIA, LDMIB, LDMDA, LDMDB with S = 0 (R330 to R332, R191) on a quiet machine, when every word is let
through: the registers of the list get the words at ascending addresses, r15 in the list is a branch, the
base is written back when W is set; no flag, no other register and no byte of memory changes. On a flat
machine every word is let through, and the words are memory's there. The base is not in the list when W is
set (log 15); the ignored address bits are log 44. -/
def Obligations.LoadMultiple : Prop :=
  (∀ (s : State) (c : Cond) (wb : Bool) (rn : Reg) (list : BitVec 16) (ws : List Word), s.passes c = true →
    s.Quiet → ∀ p ∈ s.ldmForms c false wb rn list, p.1.broken = none →
      ws.length = (listedRegs list).length → s.ReadsWords .blockRead s.privileged p.2.1 ws →
      ∃ t, exec p.1 s = .next t ∧ (∀ q ∈ (listedRegs list).zip ws, q.1 ≠ 15 → t.reg q.1 = q.2) ∧
        (wb = true → t.reg rn = p.2.2) ∧ (15 ∉ listedRegs list → t.pc = s.pc + s.len) ∧
        (∀ q ∈ (listedRegs list).zip ws, q.1 = 15 →
          t.pc = q.2 &&& (if s.thumb then 0xfffffffe else 0xfffffffc)) ∧
        OnlyLoad (((listedRegs list).filter (· ≠ 15)).map (phys s.mode) ++
          if wb then [phys s.mode rn] else []) s t) ∧
  ∀ (s : State) (priv : Bool) (a : Word) (n : Nat), s.Quiet → s.Flat →
    s.ReadsWords .blockRead priv a (s.flatWords a n) ∧
      ∀ vs : List Word, s.WritesWords .blockWrite priv a vs (flatAddresses a vs.length)

/-- LDM with ^ (R333, R334) on a quiet machine, when every word is let through: without r15 in the list the
User registers get the words, whatever the mode's bank; with r15 the mode's registers do and the CPSR comes
from the SPSR with the PC from memory. In User and System mode both are refused. The refusals are logs 34 and
35; the base is not in the list when W is set (log 15). -/
def Obligations.LoadMultipleWithCaret : Prop :=
  ∀ (s : State) (c : Cond) (wb : Bool) (rn : Reg) (list : BitVec 16) (ws : List Word), s.passes c = true →
    s.Quiet → ∀ p ∈ s.ldmForms c true wb rn list, p.1.broken = none →
      match s.spsrOf s.mode with
      | none => exec p.1 s = .refused (if list.getLsbD 15 then .noSpsr else .userBankMode)
      | some psr =>
        ws.length = (listedRegs list).length → s.ReadsWords .blockRead s.privileged p.2.1 ws →
        if list.getLsbD 15 = false then
          ∃ t, exec p.1 s = .next t ∧ t.pc = s.pc + s.len ∧ t.userBank = true ∧
            (∀ q ∈ (listedRegs list).zip ws, t.regs[phys .usr q.1] = q.2) ∧
            OnlyLoad ((listedRegs list).map (phys .usr)) s t
        else legalMode psr = true →
          ∃ t v, exec p.1 s = .next t ∧ (15, v) ∈ (listedRegs list).zip ws ∧ t.cpsr = psr ∧
            t.pc = v &&& (if psr.getLsbD 5 then 0xfffffffe else 0xfffffffc) ∧
            (∀ q ∈ (listedRegs list).zip ws, q.1 ≠ 15 → t.regs[phys s.mode q.1] = q.2) ∧
            (wb = true → t.regs[phys s.mode rn] = p.2.2) ∧
            SameRegsBut (((listedRegs list).filter (· ≠ 15)).map (phys s.mode) ++
              if wb then [phys s.mode rn] else []) s t ∧
            SameSystem s t ∧ SameTestRegs s t ∧ ∀ a, t.byteAt a = s.byteAt a

/-- STMIA, STMIB, STMDA, STMDB (R330, R331, R335, R337, R338) on a quiet machine, when every word is let
through: the registers of the list (with ^ the User registers, r15 as iaddr + 12) at the physical addresses,
ascending, every other byte of memory as before, the base written back when W is set, and its old value
stored when it is the lowest register of the list. With ^ in User or System mode it is refused (log 34). The
base is otherwise not in the list when W is set (log 15). -/
def Obligations.StoreMultiple : Prop :=
  ∀ (s : State) (c : Cond) (sf wb : Bool) (rn : Reg) (list : BitVec 16) (pas : List Word),
    s.passes c = true → s.Quiet → ∀ p ∈ s.stmForms c sf wb rn list, p.1.broken = none →
      let values := (listedRegs list).map (s.blockValue sf)
      if sf = true ∧ s.spsrOf s.mode = none then exec p.1 s = .refused .userBankMode
      else s.WritesWords .blockWrite s.privileged p.2.1 values pas →
        ∃ t, exec p.1 s = .next t ∧ t.pc = s.pc + s.len ∧ t.userBank = (sf || s.userBank) ∧
          (wb = true → t.reg rn = p.2.2) ∧ OnlyTransfer (if wb then [phys s.mode rn] else []) s t ∧
          ∀ a, t.byteAt a = (storedWords s.platform.bigEndian pas values a).getD (s.byteAt a)

/-- PUSH, POP, STMIA and LDMIA of Thumb state (R468 to R471) on a quiet machine, when every word is let
through: the words, the base's update, POP's branch within Thumb state; nothing else changes. The forms
refused for the base in the list are log 15. -/
def Obligations.ThumbMultiple : Prop :=
  ∀ (s : State) (extra : Bool) (rb : LowReg) (list : BitVec 8) (ws pas : List Word), s.Quiet →
    let low := listedRegs list
    let push := if extra then low ++ [14] else low
    let pop := if extra then low ++ [15] else low
    let sp := s.reg 13 - BitVec.ofNat 32 (4 * push.length)
    let up := BitVec.ofNat 32 (4 * low.length)
    let p := s.privileged
    let big := s.platform.bigEndian
    ((Instr.thumbPush extra list).broken = none → s.WritesWords .blockWrite p sp (push.map s.reg) pas →
      ∃ t, exec (.thumbPush extra list) s = .next t ∧ t.pc = s.pc + s.len ∧
        t.reg 13 = sp ∧ OnlyTransfer [phys s.mode 13] s t ∧
        ∀ a, t.byteAt a = (storedWords big pas (push.map s.reg) a).getD (s.byteAt a)) ∧
    ((Instr.thumbPop extra list).broken = none → ws.length = pop.length → s.ReadsWords .blockRead p (s.reg 13) ws →
      ∃ t, exec (.thumbPop extra list) s = .next t ∧
        t.reg 13 = s.reg 13 + BitVec.ofNat 32 (4 * pop.length) ∧
        (∀ q ∈ pop.zip ws, if q.1 = 15 then t.pc = q.2 &&& (if s.thumb then 0xfffffffe else 0xfffffffc)
          else t.reg q.1 = q.2) ∧
        (extra = false → t.pc = s.pc + s.len) ∧ OnlyLoad (phys s.mode 13 :: low.map (phys s.mode)) s t) ∧
    ((Instr.thumbStmia rb list).broken = none → s.WritesWords .blockWrite p (s.reg rb.reg) (low.map s.reg) pas →
      ∃ t, exec (.thumbStmia rb list) s = .next t ∧ t.pc = s.pc + s.len ∧ t.reg rb.reg = s.reg rb.reg + up ∧
        OnlyTransfer [phys s.mode rb.reg] s t ∧
        ∀ a, t.byteAt a = (storedWords big pas (low.map s.reg) a).getD (s.byteAt a)) ∧
    ((Instr.thumbLdmia rb list).broken = none → ws.length = low.length → s.ReadsWords .blockRead p (s.reg rb.reg) ws →
      ∃ t, exec (.thumbLdmia rb list) s = .next t ∧ t.pc = s.pc + s.len ∧
        t.reg rb.reg = s.reg rb.reg + up ∧ (∀ q ∈ low.zip ws, t.reg q.1 = q.2) ∧
        OnlyLoad (phys s.mode rb.reg :: low.map (phys s.mode)) s t)

/-- A Data Abort within LDM, LDM with ^ of both kinds, POP and Thumb LDMIA, at any word and of any cause
(R331, R336, R469, R471, R513): the words read before it are in their registers, but for the base and r15;
the base is updated when it is written back; FSR and FAR are those of the first word that aborted; Abort mode
is entered with r14_abt = iaddr + 8, the old CPSR in SPSR_abt, I set and the other bits of the CPSR kept
(R503); neither r15's word nor the SPSR reaches the PC and CPSR, and no other register, SPSR or CP14 register
changes. The accesses are the ones of R331, in order. The base after the abort and r15 are log
30. -/
def Obligations.DataAbortOfLoadMultiple : Prop :=
  ∀ (s u : State) (p : BlockLoad) (b : Block) (i : AbortInfo), s.IsBlockLoad p → s.pins.dbgen = false →
    s.dbg.ack = false → s.loadWords .blockRead s.privileged p.regs p.start .empty = (b, u) → b.stop = none →
    b.abort = some i →
    ∃ t, exec p.instr s = .next t ∧
      t.cp15 = { s.cp15 with fsr := i.domain ++ i.code, far := i.addr } ∧ t.memsys = u.memsys ∧
      t.regs[phys .abt 14] = s.pc + 8 ∧ t.spsrAbt = s.cpsr ∧ modeField t.cpsr = Mode.abt.bits ∧
      t.thumb = false ∧ t.pc = (if s.cp15.control.getLsbD 13 then 0xffff0000 else 0) + 0x10 ∧
      t.cpsr.getLsbD 7 = true ∧ t.cpsr.getLsbD 6 = s.cpsr.getLsbD 6 ∧
      t.cpsr.extractLsb' 8 24 = s.cpsr.extractLsb' 8 24 ∧ (∀ m, m ≠ .abt → t.spsrOf m = s.spsrOf m) ∧
      t.pipe = [] ∧ t.cp14 = s.cp14 ∧
      (∀ q ∈ b.loaded, q.1 ≠ 15 → q.1 ≠ p.rn → phys p.bank q.1 ≠ phys .abt 14 →
        t.regs[phys p.bank q.1] = q.2) ∧
      (phys s.mode p.rn ≠ phys .abt 14 → t.regs[phys s.mode p.rn] = p.newBase.getD (s.reg p.rn)) ∧
      SameRegsBut (phys .abt 14 :: phys s.mode p.rn :: b.loaded.map fun q => phys p.bank q.1) s t

/-! ## Swaps -/

/-- SWP and SWPB (R350, R351) when the access algorithm lets the locked write through on a quiet machine: Rd
gets the old word (rotated) or byte of memory, the cache not consulted; Rm's word or byte is stored; every
other byte and register is as before. -/
def Obligations.SwapExchanges : Prop :=
  ∀ (s : State) (c : Cond) (rn rd rm : Reg) (r : Route), s.passes c = true → s.Quiet →
    let a := s.reg rn
    ∀ p ∈ [(Instr.armSwp c rn rd rm, Size.word, fun w => rotatedWord a w),
        (.armSwpb c rn rd rm, .byte, fun w => w)],
      p.1.broken = none → s.Reaches .swapWrite p.2.1 s.privileged a r →
      ∃ t, exec p.1 s = .next t ∧ t.pc = s.pc + s.len ∧
        t.reg rd = p.2.2 (lanes s.cp15.bigEndian p.2.1 a (s.settled.word s.platform.bigEndian r.pa)) ∧
        OnlyStore [phys s.mode rd] p.2.1 r.pa (s.reg rm) s t

/-- A Data Abort of SWP or SWPB, of its read or of its write, leaves everything as though the instruction
had not been executed but for FSR and FAR (R350, R513), and enters Abort mode with r14_abt = iaddr + 8: on a
quiet machine no byte of memory and no line of the cache changes. Whatever the cause, an external abort of
the locked read or write among them (R136), the entry is this one and the cache is as before; and once
translation has let the read through, memory has only the buffered writes performed, where no other master
writes while the read is driven. That a cache line the write had hit is put back is log 32; that an external
abort of a swap does not ask whether the region is cachable is log 28; that no other master writes between the
two phases is log 6. -/
def Obligations.DataAbortOfSwap : Prop :=
  ∀ (s : State) (c : Cond) (rn rd rm : Reg) (i : AbortInfo), s.passes c = true →
    let a := s.reg rn
    ∀ p ∈ [(Instr.armSwp c rn rd rm, Size.word), (.armSwpb c rn rd rm, .byte)],
      p.1.broken = none →
      (s.Quiet → (s.Aborts .swapRead p.2 s.privileged a i ∨
          ((∃ r, s.Reaches .swapRead p.2 s.privileged a r) ∧ s.Aborts .swapWrite p.2 s.privileged a i)) →
        ∃ t, exec p.1 s = .next t ∧ Entered .dataAbort (s.pc + 8) s t ∧
          t.cp15 = { s.cp15 with fsr := i.domain ++ i.code, far := i.addr } ∧
          t.memsys.cache = s.memsys.cache ∧ ∀ a, t.byteAt a = s.byteAt a) ∧
      (s.pins.dbgen = false → s.dbg.ack = false →
        let read := s.load .swapRead p.2 s.privileged a
        (read.1 = .abort i ∨ ∃ w, read.1 = .ok w ∧
          (read.2.store .swapWrite p.2 s.privileged a (s.reg rm)).1 = .abort i) →
        ∃ t, exec p.1 s = .next t ∧ Entered .dataAbort (s.pc + 8) s t ∧ t.cp14 = s.cp14 ∧
          t.cp15 = { s.cp15 with fsr := i.domain ++ i.code, far := i.addr } ∧
          t.memsys.cache = s.memsys.cache ∧
          ∀ r m, s.memsys.resolve s.platform.bigEndian s.cp15 .swapRead p.2 s.privileged a = (.ok r, m) →
            let d := m.drain s.platform.bigEndian
            (∀ x ∈ answersTaken d.answers, x.writes = []) → t.memsys.mem = d.mem ∧ t.memsys.wbuf = [])

/-! ## Thumb register instructions -/

/-- The Thumb shifts and logical instructions (R391 to R394, R399, R403 to R407, R410, R411, R415, R417, R418,
R434): the result in Rd (not TST), N and Z of it, C the shift's carry or kept, V kept, nothing else. -/
def Obligations.ThumbShiftAndLogic : Prop :=
  ∀ (s : State) (rs rd : LowReg) (n : BitVec 5) (imm8 : BitVec 8),
    let x := s.reg rs.reg
    let d := s.reg rd.reg
    let k := s.flagC
    let m := x.toNat % 256
    let n32 := if n = 0 then 32 else n.toNat
    (∀ p ∈ [(Instr.thumbLslImm n rs rd, lsl x n.toNat k), (.thumbLsrImm n rs rd, lsr x n32 k),
        (.thumbAsrImm n rs rd, asr x n32 k), (.thumbLslReg rs rd, lsl d m k), (.thumbLsrReg rs rd, lsr d m k),
        (.thumbAsrReg rs rd, asr d m k), (.thumbRor rs rd, ror d m k),
        (.thumbMovImm rd imm8, ⟨imm8.zeroExtend 32, k⟩), (.thumbAnd rs rd, ⟨d &&& x, k⟩),
        (.thumbEor rs rd, ⟨d ^^^ x, k⟩), (.thumbOrr rs rd, ⟨d ||| x, k⟩), (.thumbBic rs rd, ⟨d &&& ~~~x, k⟩),
        (.thumbMvn rs rd, ⟨~~~x, k⟩)],
      ∃ t, exec p.1 s = .next t ∧ LeavesResult s t true rd.reg p.2.value p.2.carry s.flagV) ∧
    ∃ t, exec (.thumbTst rs rd) s = .next t ∧ LeavesFlags s t (d &&& x) k s.flagV

/-- The Thumb additions, subtractions and compares (R391, R395 to R398, R400 to R402, R408, R409, R412 to R414,
R426): the result in Rd (not the compares), N and Z of it, C the carry or no borrow, V when the signed result
does not fit, nothing else. -/
def Obligations.ThumbArithmetic : Prop :=
  ∀ (s : State) (rn rs rd : LowReg) (rm hd : Reg) (imm3 : BitVec 3) (imm8 : BitVec 8),
    let x := s.reg rs.reg
    let d := s.reg rd.reg
    let y := s.reg rn.reg
    let k := s.flagC.toNat
    let borrow := (!s.flagC).toNat
    (∀ p ∈ [(Instr.thumbAddReg rn rs rd, x.toInt + y.toInt, decide (2 ^ 32 ≤ x.toNat + y.toNat)),
        (.thumbSubReg rn rs rd, x.toInt - y.toInt, decide (y.toNat ≤ x.toNat)),
        (.thumbAddImm3 imm3 rs rd, x.toInt + imm3.toNat, decide (2 ^ 32 ≤ x.toNat + imm3.toNat)),
        (.thumbSubImm3 imm3 rs rd, x.toInt - imm3.toNat, decide (imm3.toNat ≤ x.toNat)),
        (.thumbAddImm8 rd imm8, d.toInt + imm8.toNat, decide (2 ^ 32 ≤ d.toNat + imm8.toNat)),
        (.thumbSubImm8 rd imm8, d.toInt - imm8.toNat, decide (imm8.toNat ≤ d.toNat)),
        (.thumbAdc rs rd, d.toInt + x.toInt + k, decide (2 ^ 32 ≤ d.toNat + x.toNat + k)),
        (.thumbSbc rs rd, d.toInt - x.toInt - borrow, decide (x.toNat + borrow ≤ d.toNat)),
        (.thumbNeg rs rd, -x.toInt, decide (x.toNat = 0))],
      ∃ t, exec p.1 s = .next t ∧
        LeavesResult s t true rd.reg (BitVec.ofInt 32 p.2.1) p.2.2 (overflows p.2.1)) ∧
    ∀ p ∈ [(Instr.thumbCmpImm rd imm8, d.toInt - imm8.toNat, decide (imm8.toNat ≤ d.toNat)),
        (.thumbCmpReg rs rd, d.toInt - x.toInt, decide (x.toNat ≤ d.toNat)),
        (.thumbCmn rs rd, d.toInt + x.toInt, decide (2 ^ 32 ≤ d.toNat + x.toNat)),
        (.thumbCmpHi rm hd, (s.reg hd).toInt - (s.reg rm).toInt,
          decide ((s.reg rm).toNat ≤ (s.reg hd).toNat))],
      p.1.broken = none →
      ∃ t, exec p.1 s = .next t ∧ LeavesFlags s t (BitVec.ofInt 32 p.2.1) p.2.2 (overflows p.2.1)

/-- ADD and MOV with high registers, ADD Rd, PC, ADD Rd, SP and ADD SP (R425, R427, R428, R430 to R433): the
sum or copy in the destination, with r15 as destination a branch that stays in Thumb state; no flag, nothing
else. -/
def Obligations.ThumbHighAndAddress : Prop :=
  ∀ (s : State) (rm hd : Reg) (rd : LowReg) (word8 : BitVec 8) (word7 : BitVec 7), s.thumb = true →
    ∀ p ∈ [(Instr.thumbAddHi rm hd, hd, s.reg hd + s.reg rm), (.thumbMovHi rm hd, hd, s.reg rm),
        (.thumbAddPc rd word8, rd.reg, ((s.pc + 4) &&& 0xfffffffc) + BitVec.ofNat 32 (4 * word8.toNat)),
        (.thumbAddSp rd word8, rd.reg, s.reg 13 + BitVec.ofNat 32 (4 * word8.toNat)),
        (.thumbIncSp word7, 13, s.reg 13 + BitVec.ofNat 32 (4 * word7.toNat)),
        (.thumbDecSp word7, 13, s.reg 13 - BitVec.ofNat 32 (4 * word7.toNat))],
      p.1.broken = none →
      ∃ t, exec p.1 s = .next t ∧ t.cpsr = s.cpsr ∧
        if p.2.1 = 15 then t.pc = p.2.2 &&& 0xfffffffe ∧ t.pipe = [] ∧ OnlyRegisters [] s t
        else t.reg p.2.1 = p.2.2 ∧ t.pc = s.pc + 2 ∧ OnlyRegisters [phys s.mode p.2.1] s t

/-! ## Coprocessors -/

/-- A coprocessor instruction that no coprocessor accepts takes the Undefined Instruction trap with nothing
else changed (R355, R364 to R366, R510): CDP, LDC and STC to 14, 15 or a number with no coprocessor
attached, MCR and MRC to such a number, to CP15 in User mode and to CP14 in a form R366 does not list; so
does one an attached coprocessor answers absent. One it answers busy has no effect and is offered again
(R356). The answers of attached coprocessors are a script (log 10). -/
def Obligations.CoprocessorNotReady : Prop :=
  ∀ (s : State) (c : Cond) (op1 crn crd cp crm : BitVec 4) (o1 op2 : BitVec 3) (rn rd : Reg)
    (p up n wb : Bool) (off : BitVec 8), s.passes c = true →
    let free := s.platform.extCoprocs.getLsbD cp.toNat = false ∨ cp = 14 ∨ cp = 15
    let form := fun r : Bool => o1 = 0 ∧ crm = 0 ∧ op2 = 0 ∧ ((crn = 0 ∧ r = true) ∨ crn = 1 ∨ crn = 2)
    ∀ i, Instr.broken i = none →
      ((free ∧ (i = .armCdp c op1 crn crd cp op2 crm ∨ i = .armLdc c p up n wb rn crd cp off ∨
          i = .armStc c p up n wb rn crd cp off ∨
          (cp ≠ 14 ∧ (cp = 15 → s.privileged = false) ∧
            (i = .armMcr c o1 crn rd cp op2 crm ∨ i = .armMrc c o1 crn rd cp op2 crm)) ∨
          (cp = 14 ∧ ¬ form false ∧ i = .armMcr c o1 crn rd cp op2 crm) ∨
          (cp = 14 ∧ ¬ form true ∧ i = .armMrc c o1 crn rd cp op2 crm)) →
        ∃ t, exec i s = .next t ∧ Entered .undefined (s.pc + s.len) s t ∧ SameOutside s t) ∧
      ∀ r rest, ¬ free → s.coproc = r :: rest →
        (i = .armCdp c op1 crn crd cp op2 crm ∨ i = .armLdc c p up n wb rn crd cp off ∨
          i = .armStc c p up n wb rn crd cp off ∨ i = .armMcr c o1 crn rd cp op2 crm ∨
          i = .armMrc c o1 crn rd cp op2 crm) →
        (r.answer = .busy → exec i s = .next { s with coproc := rest }) ∧
        (r.answer = .absent →
          ∃ t, exec i s = .next t ∧ Entered .undefined (s.pc + s.len) s t ∧
            SameOutside { s with coproc := rest } t))

/-- CDP, MCR and MRC that an attached coprocessor answers ready (R359, R362, R363, R368): CDP and MCR send
the fields and change nothing of the core; MRC writes the value to Rd, or with Rd = r15 its bits [31:28] to
the flags. The answers of attached coprocessors are a script (log 10). -/
def Obligations.CoprocessorReady : Prop :=
  ∀ (s : State) (c : Cond) (op1 crn crd cp crm : BitVec 4) (o1 op2 : BitVec 3) (rd : Reg)
    (r : CoprocReply) (rest : List CoprocReply), s.passes c = true →
    s.platform.extCoprocs.getLsbD cp.toNat = true → cp ≠ 14 → cp ≠ 15 → s.coproc = r :: rest →
    r.answer = .ready →
    let sent := fun x => { s with coproc := rest, calls := s.calls ++ [x] }
    exec (.armCdp c op1 crn crd cp op2 crm) s = .next (sent (.dataOp cp op1 crd crn crm op2)).advance ∧
    (rd ≠ 15 → exec (.armMcr c o1 crn rd cp op2 crm) s =
      .next (sent (.write cp o1 crn crm op2 (s.reg rd))).advance) ∧
    ∃ t, exec (.armMrc c o1 crn rd cp op2 crm) s = .next t ∧ t.pc = s.pc + s.len ∧
      OnlyRegisters (if rd = 15 then [] else [phys s.mode rd]) (sent (.read cp o1 crn crm op2)) t ∧
      if rd = 15 then
        FlagsAre t (r.first.getLsbD 31) (r.first.getLsbD 30) (r.first.getLsbD 29) (r.first.getLsbD 28)
      else t.reg rd = r.first ∧ t.cpsr = s.cpsr

/-- LDC and STC that an attached coprocessor answers ready, on a quiet machine, when every word is let
through (R192, R360, R361): the words from or to ascending addresses, as many as the coprocessor says, each
told to it in order, in the unindexed form with the option of bits [7:0]; the base written back for P = 0 or
W = 1 but for the unindexed form; no flag and no other register or byte changes. The answers of attached
coprocessors are a script (log 10). -/
def Obligations.CoprocessorTransfer : Prop :=
  ∀ (s : State) (c : Cond) (p up n wb : Bool) (rn : Reg) (crd cp : BitVec 4) (off : BitVec 8)
    (r : CoprocReply) (rest : List CoprocReply) (ws pas : List Word), s.passes c = true → s.Quiet →
    s.platform.extCoprocs.getLsbD cp.toNat = true → cp ≠ 14 → cp ≠ 15 → s.coproc = r :: rest →
    r.answer = .ready → (Instr.armLdc c p up n wb rn crd cp off).broken = none →
    let idx := s.indexedBase up rn (BitVec.ofNat 32 (4 * off.toNat))
    let a := if p then idx else s.reg rn
    let opt := if p || wb then none else some off
    let base := if wb then [phys s.mode rn] else []
    let count := 1 + r.more.length
    (ws.length = count → s.ReadsWords .blockRead s.privileged a ws →
      ∃ t, exec (.armLdc c p up n wb rn crd cp off) s = .next t ∧ t.pc = s.pc + s.len ∧
        (wb = true → t.reg rn = idx) ∧ t.coproc = rest ∧
        t.calls = s.calls ++ ws.zipIdx.map (fun q => .loadWord cp crd n opt q.2 q.1) ∧
        OnlyLoad base { s with coproc := rest, calls := t.calls } t) ∧
    (s.WritesWords .write s.privileged a (r.first :: r.more) pas →
      ∃ t, exec (.armStc c p up n wb rn crd cp off) s = .next t ∧ t.pc = s.pc + s.len ∧
        (wb = true → t.reg rn = idx) ∧ t.coproc = rest ∧
        t.calls = s.calls ++ (List.range count).map (fun k => .storeWord cp crd n opt k) ∧
        OnlyTransfer base { s with coproc := rest, calls := t.calls } t ∧
        ∀ x, t.byteAt x = (storedWords s.platform.bigEndian pas (r.first :: r.more) x).getD (s.byteAt x))

/-- MRC from the CP15 registers in a privileged mode (R42, R43, R45 to R48, R51, R52, R54, R365): the bits
of each register the spec gives, in Rd or with Rd = r15 its bits [31:28] in the flags (R363), nothing else
changed but that the value c1 was read as may be written back to it (R43); C15.C and C15.M, and c10, whose
format is lost, in test state only (R54, R57, R58); reads of c4, c7, c8, c11, c12 and c14 are refused (R41,
R365). The refusals are log 19; bits outside each mask are open (log 17); the revision nibble of the ID
register is a parameter (log 41); the values read, kept, are log 18; c10's is log 11. -/
def Obligations.Cp15Reads : Prop :=
  ∀ (s : State) (c : Cond) (rd : Reg), s.passes c = true → s.privileged = true →
    let reads := fun (op1 : BitVec 3) (crn crm : BitVec 4) (op2 : BitVec 3) (mask value : Word) => ∃ t v,
      exec (.armMrc c op1 crn rd 15 op2 crm) s = .next t ∧ v &&& mask = value &&& mask ∧
      t.pc = s.pc + s.len ∧
      let s' := if crn = 1 then
        { s with cp15 := { s.cp15 with controlReads := v :: s.cp15.controlReads } } else s
      if rd = 15 then
        FlagsAre t (v.getLsbD 31) (v.getLsbD 30) (v.getLsbD 29) (v.getLsbD 28) ∧ OnlyRegisters [] s' t
      else t.reg rd = v ∧ t.cpsr = s.cpsr ∧ OnlyRegisters [phys s.mode rd] s' t
    (reads 0 0 0 0 0xffffffff (0x41807200 ||| s.platform.revision.zeroExtend 32) ∧
      reads 0 1 0 0 0x000023ff s.cp15.control ∧ reads 0 2 0 0 0xffffc000 (s.cp15.ttb ++ 0#14) ∧
      reads 0 3 0 0 0xffffffff s.cp15.dacr ∧ reads 0 5 0 0 0x000001ff (s.cp15.fsr.zeroExtend 32) ∧
      reads 0 6 0 0 0xffffffff s.cp15.far ∧ reads 0 13 0 0 0xfe000000 (s.cp15.pid ++ 0#25) ∧
      reads 0 13 0 1 0xffffffff s.cp15.procId ∧
      reads 7 15 15 7 0x00000001 (if s.cp15.testOn then 1 else 0)) ∧
    (s.cp15.testOn = true → reads 3 15 3 0 0xffffffff s.memsys.c15c ∧
      reads 4 15 3 0 0xffffffff s.memsys.c15m ∧ reads 0 10 0 0 0 0) ∧
    (s.cp15.testOn = false →
      ∀ x ∈ [((3 : BitVec 3), (15 : BitVec 4), (3 : BitVec 4)), (4, 15, 3), (0, 10, 0)],
        exec (.armMrc c x.1 x.2.1 rd 15 0 x.2.2) s = .refused .testStateOff) ∧
    ∀ crn ∈ [(4 : BitVec 4), 7, 8, 11, 12, 14], ∀ op1 op2 crm,
      exec (.armMrc c op1 crn rd 15 op2 crm) s = .refused .cp15Unpredictable

/-- MCR to the CP15 registers in a privileged mode (R43, R45 to R48, R51, R52, R54, R365): the bits the spec
lets software write take Rd's, nothing else changes; the Control Register keeps P, D and L set. A write of
c2, c5 or c13 whose bits that Should Be Zero are not is refused (U9), as is one of c1 whose bits [31:14] and
[12:10] are neither zero nor what was read there (U8), and one of c1 that leaves cache or write buffer on
with the MMU off (U10, R44); so are writes of c0, c4, c11, c12 and c14. The refusals are logs 18, 19 and
20. -/
def Obligations.Cp15Writes : Prop :=
  ∀ (s : State) (c : Cond) (rd : Reg), s.passes c = true → s.privileged = true → rd ≠ 15 →
    let v := s.reg rd
    let cp := s.cp15
    let mcr := fun (op1 : BitVec 3) crn crm op2 => exec (.armMcr c op1 crn rd 15 op2 crm) s
    let becomes := fun cp' => Host.Outcome.next (State.advance { s with cp15 := cp' })
    let sbz := fun (mask : Word) cp' => if v &&& mask = 0 then becomes cp' else .refused .cp15SbzBits
    let preserved := fun k n => v.extractLsb' k n = 0 ∨ ∃ r ∈ cp.controlReads, r.extractLsb' k n = v.extractLsb' k n
    (¬ (preserved 14 18 ∧ preserved 10 3) → mcr 0 1 0 0 = .refused .cp15SbzBits) ∧
    (preserved 14 18 ∧ preserved 10 3 →
      if (v.getLsbD 2 || v.getLsbD 3) && !v.getLsbD 0 then mcr 0 1 0 0 = .refused .cacheWithoutMmu
      else mcr 0 1 0 0 = becomes { cp with control := (v &&& 0x0000238f) ||| 0x00000070 }) ∧
    mcr 0 2 0 0 = sbz 0x00003fff { cp with ttb := v.extractLsb' 14 18 } ∧
    mcr 0 3 0 0 = becomes { cp with dacr := v } ∧
    mcr 0 5 0 0 = sbz 0xfffffe00 { cp with fsr := v.extractLsb' 0 8 } ∧
    mcr 0 6 0 0 = becomes { cp with far := v } ∧
    mcr 0 13 0 0 = sbz 0x01ffffff { cp with pid := v.extractLsb' 25 7 } ∧
    mcr 0 13 0 1 = becomes { cp with procId := v } ∧
    mcr 7 15 15 7 = becomes { cp with testOn := v.getLsbD 0 } ∧
    ∀ crn ∈ [(0 : BitVec 4), 4, 11, 12, 14], ∀ op1 op2 crm, mcr op1 crn crm op2 = .refused .cp15Unpredictable

/-- MRC and MCR to CP14 in every mode (R61 to R63, R366): the DCC control register with its version and the
W and R bits; a write of the data register sets W; a read of it clears R; DbgAbt read and written; with Rd =
r15 the flags take bits [31:28] of the value (R363). The debugger's side through scan chain 2 (R61, R62,
R553): its read of the data register returns what the program wrote and clears W, its write sets R, its read
of the control register has version b0100, and its write of that register can clear R. That a value with bit
0 clear does so, W kept, and the scan chain events are log 31. -/
def Obligations.Cp14Operations : Prop :=
  let bit := fun b : Bool => if b then (1 : Word) else 0
  (∀ (s : State) (c : Cond) (rd : Reg), s.passes c = true →
    let v := s.reg rd
    let reads := fun (crn : BitVec 4) (v : Word) (cp : Cp14) => ∃ t,
      exec (.armMrc c 0 crn rd 14 0 0) s = .next t ∧ t.pc = s.pc + s.len ∧
      if rd = 15 then
        FlagsAre t (v.getLsbD 31) (v.getLsbD 30) (v.getLsbD 29) (v.getLsbD 28) ∧
          OnlyRegisters [] { s with cp14 := cp } t
      else t.reg rd = v ∧ t.cpsr = s.cpsr ∧ OnlyRegisters [phys s.mode rd] { s with cp14 := cp } t
    (rd ≠ 15 → exec (.armMcr c 0 1 rd 14 0 0) s =
      .next (State.advance { s with cp14 := { s.cp14 with dccWrite := v, w := true } })) ∧
    (rd ≠ 15 → exec (.armMcr c 0 2 rd 14 0 0) s =
      .next (State.advance { s with cp14 := { s.cp14 with dbgAbt := v.getLsbD 0 } })) ∧
    reads 0 (0x70000000 ||| (bit s.cp14.w <<< 1) ||| bit s.cp14.r) s.cp14 ∧
    reads 1 s.cp14.dccRead { s.cp14 with r := false } ∧ reads 2 (bit s.cp14.dbgAbt) s.cp14) ∧
  ∀ (s : State) (v : Word) (rest : List EnvEvent), s.dbg.tapInstr = 0b1100 → s.dbg.scanPath = 2 →
    let after := fun (cp : Cp14) (result : Word) => Host.Outcome.next
      { s with schedule := rest, cp14 := cp, dbg := { s.dbg with scanResult := result } }
    (s.schedule = .scan2 false 0b00101 v :: rest →
      step s = after { s.cp14 with w := false } s.cp14.dccWrite) ∧
    (s.schedule = .scan2 true 0b00101 v :: rest →
      step s = after { s.cp14 with dccRead := v, r := true } s.dbg.scanResult) ∧
    (s.schedule = .scan2 false 0b00100 v :: rest →
      step s = after s.cp14 (0x40000000 ||| (bit s.cp14.w <<< 1) ||| bit s.cp14.r)) ∧
    (s.schedule = .scan2 true 0b00100 v :: rest →
      step s = after { s.cp14 with r := s.cp14.r && v.getLsbD 0 } s.dbg.scanResult)

/-! ## Memory -/

/-- FCSE (R110): an address in the bottom 32MB has the PID in its top seven bits, every other is unchanged;
with the MMU off and no alignment fault (alignment checking off, a fetch, a byte, or an aligned word or
halfword, R97) every access goes to the relocated address (R113), bits [1:0] of a word access ignored (R96),
neither cachable nor bufferable. -/
def Obligations.FlatAddress : Prop :=
  ∀ (s : State) (k : Access) (n : Size) (priv : Bool) (va : Word),
    (fcse s.cp15.pid va).toNat =
      (if va.toNat < 2 ^ 25 then s.cp15.pid.toNat * 2 ^ 25 + va.toNat else va.toNat) ∧
    (s.cp15.control.getLsbD 0 = false →
      (s.cp15.alignOn = false ∨ k = .fetch ∨ n = .byte ∨ (n = .half ∧ va.toNat % 2 = 0) ∨
        (n = .word ∧ va.toNat % 4 = 0)) →
      s.Reaches k n priv va
        ⟨if n = .word then fcse s.cp15.pid va &&& 0xfffffffc else fcse s.cp15.pid va, false, false, priv,
          none⟩)

/-- The domain check and the access permission table (R128, R129): no access and reserved domains fault, a
manager's accesses pass, a client's pass as AP, S, R, the privilege and the kind of access say, with the
section and page codes of R131. That S = R = 1 is a permission fault is an inference R129 marks as its own
(log 27). -/
def Obligations.DomainAndPermission : Prop :=
  ∀ (cp : Cp15) (k : Access) (priv : Bool) (e : TlbEntry),
    let d := cp.dacr.extractLsb' (2 * e.domain.toNat) 2
    let sBit := cp.control.getLsbD 8
    let rBit := cp.control.getLsbD 9
    let writes := k = .write ∨ k = .swapWrite ∨ k = .blockWrite ∨ k = .nextWrite
    let allowed := ¬ (sBit = true ∧ rBit = true) ∧
      ((e.ap = 0 ∧ ¬ writes ∧ (rBit = true ∨ (sBit = true ∧ priv = true))) ∨ (e.ap = 1 ∧ priv = true) ∨
        (e.ap = 2 ∧ (priv = true ∨ ¬ writes)) ∨ e.ap = 3)
    (d = 0 ∨ d = 2 → e.check cp k priv = some (if e.size = .mb1 then 0b1001 else 0b1011)) ∧
    (d = 3 → e.check cp k priv = none) ∧
    (d = 1 → allowed → e.check cp k priv = none) ∧
    (d = 1 → ¬ allowed → e.check cp k priv = some (if e.size = .mb1 then 0b1101 else 0b1111))

/-- The table walk on a TLB miss, on a calm bus (R115, R117 to R123, R133): the section, large, small or tiny
page gives the physical address, domain, AP, C and B, and the entry answers for the address from then on; an
invalid descriptor is a section or page translation fault, and leaves the TLB as it is. A tiny page in a
coarse table is refused (U23). Memory does not change. That the walk reads memory directly is log 25; the
descriptor bits it ignores and the refusal are log 26; that the entry gets the preserve bit of c10 is the
model's choice, log 24. -/
def Obligations.TableWalk : Prop :=
  ∀ (big : Bool) (cp : Cp15) (ms : MemSys) (mva : Word), ms.Calm → ms.tlbLookup mva = none →
    let l1 := ms.mem.word big (cp.ttb ++ mva.extractLsb' 20 12 ++ 0#2)
    let fine := l1.extractLsb' 0 2 = 3
    let l2 := ms.mem.word big (if fine then l1.extractLsb' 12 20 ++ mva.extractLsb' 10 10 ++ 0#2
      else l1.extractLsb' 10 22 ++ mva.extractLsb' 12 8 ++ 0#2)
    let finds := fun (pa : Word) (ap : BitVec 2) (l : Word) => ∃ e ms',
      ms.translate big cp mva = (.ok e, ms') ∧ e.physical mva = pa ∧ e.domain = l1.extractLsb' 5 4 ∧
      e.ap = ap ∧ e.cachable = l.getLsbD 3 ∧ e.bufferable = l.getLsbD 2 ∧
      (e.size = .mb1 ↔ l1.extractLsb' 0 2 = 2) ∧ ms'.mem = ms.mem ∧
      ∃ e', ms'.tlbLookup mva = some e' ∧ e' = { e with preserve := ms.tlbPreserve }
    let fails := fun got : Got TlbEntry => ∃ ms',
      ms.translate big cp mva = (got, ms') ∧ ms'.mem = ms.mem ∧ ms'.tlb = ms.tlb
    (l1.extractLsb' 0 2 = 0 → ∃ d, fails (.abort ⟨0b0101, d, mva, false⟩)) ∧
    (l1.extractLsb' 0 2 = 2 →
      finds (l1.extractLsb' 20 12 ++ mva.extractLsb' 0 20) (l1.extractLsb' 10 2) l1) ∧
    (l1.extractLsb' 0 2 = 1 ∨ fine →
      (l2.extractLsb' 0 2 = 0 → fails (.abort ⟨0b0111, l1.extractLsb' 5 4, mva, false⟩)) ∧
      (l2.extractLsb' 0 2 = 1 → finds (l2.extractLsb' 16 16 ++ mva.extractLsb' 0 16)
        (l2.extractLsb' (4 + 2 * (mva.extractLsb' 14 2).toNat) 2) l2) ∧
      (l2.extractLsb' 0 2 = 2 → finds (l2.extractLsb' 12 20 ++ mva.extractLsb' 0 12)
        (l2.extractLsb' (4 + 2 * (mva.extractLsb' 10 2).toNat) 2) l2) ∧
      (l2.extractLsb' 0 2 = 3 → if fine then finds (l2.extractLsb' 10 22 ++ mva.extractLsb' 0 10)
        (l2.extractLsb' 4 2) l2 else fails (.stop .tinyPageInCoarse)))

/-- The TLB (R138, R50): an entry that answers is used without a walk and without a change; after MCR c8, c5,
c6 or c7, with opcode_2 = 0 none answers for any address; with opcode_2 = 1 none answers for the address
given, and what answered for an address no invalidated entry covers answers still. Its test operations (R54,
R56, R58), in test state: MCR c10 of 0 loads the victim pointer with 0; the CAM and RAM1 reads hand the victim
pointer to RAM2; the RAM2 write changes the entry of that pointer alone and moves the victim pointer on by
one; the CAM match leaves TLB and pointers, and its bits [24:22] in C15.M tell a protection fault, a domain
fault and a miss. The model's choices among these clauses: that the RAM2 read too moves the victim pointer on
(R58 says it of the write), the lost data formats, the privilege of the match and RAM2's pointer after it are
log 11; that the pointer goes from 63 to the lockdown base, and that an invalidated entry may have its
preserve bit set, are log 24; that each operation is refused out of test state is log 19. -/
def Obligations.TlbOperations : Prop :=
  ∀ (s : State) (c : Cond) (rd : Reg) (big : Bool) (mva : Word) (e : TlbEntry), s.passes c = true →
    s.privileged = true → rd ≠ 15 →
    let v := s.reg rd
    let ms := s.memsys
    let next := if ms.tlbVictim = 63 then ms.tlbBase else ms.tlbVictim + 1
    let does := fun (op1 : BitVec 3) (crn crm : BitVec 4) (op2 : BitVec 3) (holds : MemSys → Prop) => ∃ t,
      exec (.armMcr c op1 crn rd 15 op2 crm) s = .next t ∧ t.pc = s.pc + s.len ∧ t.regs = s.regs ∧
      t.cpsr = s.cpsr ∧ t.cp15 = s.cp15 ∧ t.memsys.mem = ms.mem ∧ t.memsys.cache = ms.cache ∧ holds t.memsys
    (ms.tlbLookup mva = some e → ms.translate big s.cp15 mva = (.ok e, ms)) ∧
    (∀ crm ∈ [(5 : BitVec 4), 6, 7],
      does 0 8 crm 0 (fun m => m = { ms with tlb := m.tlb } ∧ m.tlbLookup mva = none) ∧
      does 0 8 crm 1 (fun m => m = { ms with tlb := m.tlb } ∧ m.tlbLookup v = none ∧
        ((∀ x ∈ ms.tlb.toList, ¬ (x.hits v = true ∧ x.hits mva = true)) →
          m.tlbLookup mva = ms.tlbLookup mva))) ∧
    (s.cp15.testOn = true →
      does 0 10 0 0 (fun m => m.tlb = ms.tlb ∧ (v = 0 → m.tlbVictim = 0)) ∧
      does 4 15 7 4 (fun m => m = { ms with c15m := m.c15m, ram2Pointer := ms.tlbVictim }) ∧
      does 4 15 11 4 (fun m => m = { ms with c15m := m.c15m, ram2Pointer := ms.tlbVictim }) ∧
      does 4 15 3 5 (fun m => m = { ms with c15m := m.c15m, tlbVictim := next }) ∧
      does 4 15 3 1 (fun m => m = { ms with tlb := m.tlb, tlbVictim := next } ∧
        ∀ i : Fin 64, i ≠ ms.ram2Pointer.toFin → m.tlb[i] = ms.tlb[i]) ∧
      does 4 15 13 4 (fun m => m = { ms with c15m := m.c15m, draws := m.draws } ∧
        match ms.tlbLookup v with
        | none => m.c15m.getLsbD 22 = true
        | some e =>
          let d := s.cp15.dacr.extractLsb' (2 * e.domain.toNat) 2
          m.c15m.getLsbD 22 = false ∧ (m.c15m.getLsbD 23 = true ↔ d = 0 ∨ d = 2) ∧
            (d = 1 → (m.c15m.getLsbD 24 = true ↔ e.check s.cp15 .read true ≠ none)) ∧
            (d = 3 → m.c15m.getLsbD 24 = false))) ∧
    (s.cp15.testOn = false →
      ∀ x ∈ [((0 : BitVec 3), (10 : BitVec 4), (0 : BitVec 4), (0 : BitVec 3)), (4, 15, 7, 4), (4, 15, 7, 0),
          (4, 15, 11, 4), (4, 15, 11, 0), (4, 15, 3, 5), (4, 15, 3, 1), (4, 15, 13, 4)],
        exec (.armMcr c x.1 x.2.1 rd 15 x.2.2.2 x.2.2.1) s = .refused .testStateOff)

/-- The cache (R142, R143, R146): a cachable read that misses places its line, so that the next read of the
address hits, gives the same word and changes nothing; after a write of any width that hits, buffered or not,
a read of the address hits and its word has the written lanes, the others as they were; after MCR c7, c7, 0
no address hits and memory is as before. Its test operations (R54, R55, R57), in test state: c9 with nothing
but a segment in Rd points at index 0; a RAM read gives back what a RAM write put there; the CAM read leaves
bits 5 and 6 of C15.C zero and moves the segment's victim pointer on; out of test state each is refused. Which
line a fill replaces is log 9. The model's choices that are log 11: the segments the write of victim and base
reaches, that segment bits are no part of its index, the pointer after 63 and the lost data formats; that each
operation is refused out of test state is log 19. -/
def Obligations.CacheOperations : Prop :=
  ∀ (s : State) (c : Cond) (rd : Reg) (mva v : Word) (r : Route), s.passes c = true → s.privileged = true →
    rd ≠ 15 →
    let ms := s.memsys
    let big := s.platform.bigEndian
    let b := s.cp15.bigEndian
    let d := s.reg rd
    let mcr := fun (op1 : BitVec 3) (crn crm : BitVec 4) (op2 : BitVec 3) => Instr.armMcr c op1 crn rd 15 op2 crm
    let does := fun (i : Instr) (holds : MemSys → Prop) => ∃ t, exec i s = .next t ∧ t.pc = s.pc + s.len ∧
      t.regs = s.regs ∧ t.cpsr = s.cpsr ∧ t.cp15 = s.cp15 ∧ t.memsys.mem = ms.mem ∧
      t.memsys.tlb = ms.tlb ∧ holds t.memsys
    (∀ n, s.cp15.cacheOn = true → r.cachable = true → ms.cacheFind mva = none →
      ∃ w ms', ms.readRoute big s.cp15 .read n mva r = (.ok w, ms') ∧
        ∀ n', ms'.readRoute big s.cp15 .read n' mva r = (.ok w, ms')) ∧
    (∀ (k : Access) (n n' : Size) (i : Fin 64), s.Quiet → s.cp15.cacheOn = true → r.cachable = true →
      ms.cacheFind mva = some i →
      let old := (ms.cache[segmentOf mva][i]).words[wordOf mva]
      ∃ ms' w, ms.writeRoute big s.cp15 k n mva v r = (.ok (), ms') ∧
        ms'.readRoute big s.cp15 .read n' mva r = (.ok w, ms') ∧
        ∀ j < 4, w.extractLsb' (8 * j) 8 = match n with
          | .word => v.extractLsb' (8 * j) 8
          | .half => if j / 2 = (if b then 1 - mva.toNat / 2 % 2 else mva.toNat / 2 % 2)
              then v.extractLsb' (8 * (j % 2)) 8 else old.extractLsb' (8 * j) 8
          | .byte => if j = (if b then 3 - mva.toNat % 4 else mva.toNat % 4)
              then v.extractLsb' 0 8 else old.extractLsb' (8 * j) 8) ∧
    does (mcr 0 7 7 0) (fun m => m = { ms with cache := m.cache } ∧ m.cacheFind mva = none) ∧
    (s.cp15.testOn = true →
      (∀ op2 ∈ [(0 : BitVec 3), 1], does (mcr 0 9 0 op2) (fun m => m.cache = ms.cache ∧
        (d &&& 0xffffff9f = 0 →
          m.cacheBase = 0 ∧ m.cacheStep = true ∧ ∀ k : Fin 4, m.cacheVictim[k] = 0))) ∧
      (∀ op2 ∈ [(0 : BitVec 3), 1], does (mcr 0 9 1 op2) (fun m => m.cache = ms.cache ∧
        m.cacheBase = ms.cacheBase ∧ m.cacheStep = false ∧ ∀ k : Fin 4,
          if k.val = d.toNat / 32 % 4 then (d &&& 0xffffff9f = 0 → m.cacheVictim[k] = 0)
          else m.cacheVictim[k] = ms.cacheVictim[k])) ∧
      does (mcr 3 15 3 0) (fun m => m = { ms with c15c := d }) ∧
      (ms.cacheStep = false → ∃ t u, exec (mcr 2 15 11 6) s = .next t ∧ exec (mcr 2 15 11 2) t = .next u ∧
        u.memsys.c15c = ms.c15c ∧ u.memsys.cacheVictim = ms.cacheVictim) ∧
      does (mcr 2 15 7 2) (fun m => m.cache = ms.cache ∧ m.c15c.getLsbD 5 = false ∧ m.c15c.getLsbD 6 = false ∧
        ∀ k : Fin 4, m.cacheVictim[k] =
          if k.val = d.toNat / 32 % 4 then ms.cacheVictim[k] + 1 else ms.cacheVictim[k])) ∧
    (s.cp15.testOn = false →
      ∀ x ∈ [((0 : BitVec 3), (9 : BitVec 4), (0 : BitVec 4), (0 : BitVec 3)), (0, 9, 1, 0), (2, 15, 7, 2),
          (2, 15, 7, 6), (2, 15, 11, 2), (2, 15, 11, 6), (2, 15, 7, 5), (3, 15, 3, 0)],
        exec (mcr x.1 x.2.1 x.2.2.1 x.2.2.2) s = .refused .testStateOff)

/-- The write buffer (R150 to R153, R155): a bufferable write with W set waits behind the earlier ones, with
the protection attributes of its access (R161), memory untouched while there is room; a full buffer of eight
first performs its oldest write (R152); the bus performs the oldest when it is granted; an unbuffered write
and a read outside the cache leave nothing waiting. First in first out, eight entries and the busGrant event
are logs 23 and 5; that a buffered write is a SINGLE on the bus is the model's choice, log 40. -/
def Obligations.WriteBufferOrder : Prop :=
  ∀ (s : State) (k : Access) (n : Size) (mva v : Word) (r : Route) (rest : List EnvEvent), s.Quiet →
    let ms := s.memsys
    let big := s.platform.bigEndian
    let e : BufferedWrite :=
      ⟨r.pa, n, v, flagBit r.cachable ++ flagBit r.bufferable ++ flagBit r.priv ++ 1#1, .single⟩
    let performed := fun (x : BufferedWrite) (m : MemSys) =>
      ∀ a, m.mem.get a = (storedByte big x.size x.pa x.data a).getD (ms.mem.get a)
    (s.cp15.bufferOn = true → r.bufferable = true → ms.wbuf.length < 8 →
      ∃ ms', ms.writeRoute big s.cp15 .write n mva v r = (.ok (), ms') ∧ ms'.mem = ms.mem ∧
        ms'.wbuf = ms.wbuf ++ [e]) ∧
    (s.cp15.bufferOn = true → r.bufferable = true → ms.wbuf.length = 8 → ∀ x older, ms.wbuf = x :: older →
      ∃ ms', ms.writeRoute big s.cp15 .write n mva v r = (.ok (), ms') ∧ performed x ms' ∧
        ms'.wbuf = older ++ [e]) ∧
    (s.schedule = .busGrant :: rest → ∀ x older, ms.wbuf = x :: older →
      ∃ t, step s = .next t ∧ t.memsys.wbuf = older ∧ performed x t.memsys ∧ ∀ a, t.byteAt a = s.byteAt a) ∧
    (s.cp15.bufferOn = false ∨ r.bufferable = false ∨ k = .swapWrite →
      (ms.writeRoute big s.cp15 k n mva v r).2.wbuf = []) ∧
    (s.cp15.cacheOn = false ∨ r.cachable = false ∨ k = .swapRead →
      (ms.readRoute big s.cp15 k n mva r).2.wbuf = [])

/-- Byte order where the B bit and the platform agree (R93): the byte, halfword and word at an aligned
address as the formulas assemble them; and what a write of a width stores, a read of that width at that
address gives back. The numbering of bytes is log 45. -/
def Obligations.ByteOrder : Prop :=
  ∀ (big : Bool) (m : Memory) (a v : Word), m.wf = true →
    let read := fun n (x : Memory) => lanes big n a (x.word big a)
    read .byte m = (m.get a.toNat).zeroExtend 32 ∧
    (a.toNat % 2 = 0 → read .half m = ((if big then m.get a.toNat ++ m.get (a.toNat + 1)
      else m.get (a.toNat + 1) ++ m.get a.toNat) : Half).zeroExtend 32) ∧
    (a.toNat % 4 = 0 → read .word m =
      if big then m.get a.toNat ++ m.get (a.toNat + 1) ++ m.get (a.toNat + 2) ++ m.get (a.toNat + 3)
      else m.get (a.toNat + 3) ++ m.get (a.toNat + 2) ++ m.get (a.toNat + 1) ++ m.get a.toNat) ∧
    read .byte (m.store big .byte a v) = (v.extractLsb' 0 8).zeroExtend 32 ∧
    (a.toNat % 2 = 0 → read .half (m.store big .half a v) = (v.extractLsb' 0 16).zeroExtend 32) ∧
    read .word (m.store big .word a v) = v

/-! ## The whole machine -/

/-- Every step keeps the invariant, from every state that has it, whatever the instruction or the event from
outside: memory's canonical form, at most eight buffered writes (R150), a legal mode (R35), an aligned program
counter (R26), the constant bits of the Control Register (R43), no cache or write buffer with the MMU off
(R44), at most three prefetched instructions (R73). -/
def Obligations.StepKeepsInvariant : Prop := ∀ s t : State, s.Inv → step s = .next t → t.Inv

/-- The machine right after reset has the invariant. -/
def Obligations.ResetHasInvariant : Prop := State.reset.Inv

/-- Reset (R80, R570). From any state, the reset input leaves Supervisor mode, ARM state, I and F set, the PC
at the vector VINITHI selects, the Control Register with V from VINITHI and P, D, L only, FCSE PID and Test
State zero, cache and TLB empty, nothing buffered. Between two instructions it changes no user register but
r14_svc, no flag and no other status or CP15 register; in the middle of the next instruction each register,
flag and byte of memory is as it was before or as the instruction leaves it. While HRESETn is LOW the core
reads incrementing word addresses on the bus, and their data is ignored (R571). State.reset has the values R80
gives, with VINITHI LOW. r14_svc and SPSR_svc are open, and the abandoned instruction is one of the core's
steps (log 39); where the reads begin, how many there are and their attributes are the outside's and the
model's (logs 5, 39, 40); State.reset's other values are log 1. -/
def Obligations.ResetState : Prop :=
  (∀ (s : State) (v : Bool) (amid : Option Abandoned) (first : Word) (reads : Nat) (rest : List EnvEvent),
    s.schedule = .reset v amid first reads :: rest →
    ∃ t, step s = .next t ∧ modeField t.cpsr = Mode.svc.bits ∧ t.thumb = false ∧
      t.cpsr.getLsbD 7 = true ∧ t.cpsr.getLsbD 6 = true ∧ t.pc = (if v then 0xffff0000 else 0) ∧
      t.cp15.control = ((if v then 0x2000 else 0) ||| 0x70) ∧ t.cp15.pid = 0 ∧ t.cp15.testOn = false ∧
      t.memsys.wbuf = [] ∧ (∀ mva, t.memsys.cacheFind mva = none) ∧
      (∀ mva, t.memsys.tlbLookup mva = none) ∧ t.stuck = none ∧
      ((amid = none ∨ ∀ u, State.coreStep { s with schedule := rest } ≠ .next u) →
        t.cpsr.extractLsb' 28 4 = s.cpsr.extractLsb' 28 4 ∧
        t.cp15 = { s.cp15 with control := t.cp15.control, pid := 0, testOn := false } ∧
        SameRegsBut [phys .svc 14] s t ∧ (∀ m, m ≠ .svc → t.spsrOf m = s.spsrOf m) ∧ t.cp14 = s.cp14) ∧
      (amid = none → s.memsys.answers = [] → t.memsys.bus = s.memsys.bus ++ (List.range reads).map fun k =>
        ⟨(first &&& 0xfffffffc) + BitVec.ofNat 32 (4 * k), .word, none,
          some (0#2 ++ flagBit s.privileged ++ 0#1), false, .single, .nonseq⟩) ∧
      ∀ a u, amid = some a → State.coreStep { s with schedule := rest } = .next u →
        (∀ k : Fin 30, k ≠ phys .svc 14 → OneOf t.regs[k] s.regs[k] u.regs[k]) ∧
        (∀ j, 28 ≤ j → OneOf (t.cpsr.getLsbD j) (s.cpsr.getLsbD j) (u.cpsr.getLsbD j)) ∧
        (∀ m, m ≠ .svc → OneOf (t.spsrOf m) (s.spsrOf m) (u.spsrOf m)) ∧
        OneOf t.cp15.ttb s.cp15.ttb u.cp15.ttb ∧ OneOf t.cp15.dacr s.cp15.dacr u.cp15.dacr ∧
        OneOf t.cp15.fsr s.cp15.fsr u.cp15.fsr ∧ OneOf t.cp15.far s.cp15.far u.cp15.far ∧
        OneOf t.cp15.procId s.cp15.procId u.cp15.procId ∧
        OneOf t.cp14.dccWrite s.cp14.dccWrite u.cp14.dccWrite ∧
        OneOf t.cp14.dccRead s.cp14.dccRead u.cp14.dccRead ∧ OneOf t.cp14.w s.cp14.w u.cp14.w ∧
        OneOf t.cp14.r s.cp14.r u.cp14.r ∧ OneOf t.cp14.dbgAbt s.cp14.dbgAbt u.cp14.dbgAbt ∧
        (s.memsys.mem.wf = true → s.memsys.wbuf = [] →
          (reads = 0 ∨ ∀ x ∈ u.memsys.answers, x.writes = []) →
          ∀ x, OneOf (t.memsys.mem.get x) (s.memsys.mem.get x) ((u.memsys.drain s.platform.bigEndian).mem.get x))) ∧
  State.reset.cpsr.extractLsb' 0 8 = 0xd3 ∧ State.reset.pc = 0 ∧ State.reset.cp15.control = 0x70 ∧
  State.reset.cp15.pid = 0 ∧ State.reset.cp15.testOn = false ∧ State.reset.memsys.wbuf = [] ∧
  (∀ mva, State.reset.memsys.cacheFind mva = none) ∧ ∀ mva, State.reset.memsys.tlbLookup mva = none

/-- What User mode cannot do (R38, R40, R540): an instruction boundary of User mode with no debugger and no
event from outside changes no CP15 register but FSR and FAR, those of the cache and TLB test operations among
them (but for the TLB victim pointer, which a table walk moves on), and leaves the mode and the interrupt
masks, the banked registers and the SPSRs as they are, unless it enters an exception, which goes to a vector
with I set and changes r14 and the SPSR of that mode only. The events are log 5. -/
def Obligations.UserModeIsConfined : Prop :=
  ∀ s t : State, s.mode = .usr → s.schedule = [] → s.pins.dbgen = false → step s = .next t →
    t.cp15.control = s.cp15.control ∧ t.cp15.ttb = s.cp15.ttb ∧ t.cp15.dacr = s.cp15.dacr ∧
    t.cp15.pid = s.cp15.pid ∧ t.cp15.procId = s.cp15.procId ∧ t.cp15.testOn = s.cp15.testOn ∧
    SameTestRegs s t ∧
    ((modeField t.cpsr = modeField s.cpsr ∧ t.cpsr.extractLsb' 6 2 = s.cpsr.extractLsb' 6 2 ∧
        (∀ k : Fin 30, 15 ≤ k.val → t.regs[k] = s.regs[k]) ∧ ∀ m, t.spsrOf m = s.spsrOf m) ∨
      ∃ e : Exc, modeField t.cpsr = e.mode.bits ∧ t.thumb = false ∧ t.cpsr.getLsbD 7 = true ∧
        t.pc = s.cp15.vectorBase + e.offset ∧
        (∀ k : Fin 30, 15 ≤ k.val → k ≠ phys e.mode 14 → t.regs[k] = s.regs[k]) ∧
        ∀ m, m ≠ e.mode → t.spsrOf m = s.spsrOf m)

/-- With DBGEN HIGH. A breakpointed instruction at the head of the prefetched ones does not execute (R546,
R552, R557): in halt mode the core enters debug state three instruction lengths further, whatever the
instruction's condition, general registers and CPSR kept; in monitor mode, its condition passing, it takes a
Prefetch Abort and DbgAbt is set, FAR and the other CP15 registers kept (the FSR, unspecified by R137 and
R512, is left out). A unit triggers exactly when its enable is set, the disable bit is clear and every unmasked
bit of address, data and control matches, unit 0 with RANGE and CHAIN from unit 1, whose CHAINOUT is a latch
(R548). A watchpointed load or store of one datum (R547, R552) completes in halt mode as with no debugger and
is remembered, and the core enters debug state at the next boundary: where the instruction took a Data Abort,
once the abort vector has been fetched and one length less far (R547, R557). In monitor mode it takes a Data
Abort with DbgAbt set, and Rd and memory are as before. The prefetched instructions, the PC count and monitor
mode's failed condition, left out, are logs 12, 31 and 37; unit 1's own inputs and the address compared are
log 38. -/
def Obligations.BreakpointTaken : Prop :=
  (∀ (s : State) (w : Word) (rest : List Fetched), s.pins.dbgen = true → s.schedule = [] → s.stuck = none →
    s.dbg.ack = false → s.dbg.pending = false → s.debugRequested = false → s.offTop = false →
    s.interrupt = none → s.prefetch.pipe = ⟨.ok w, true⟩ :: rest →
    (s.dbg.ctl.getLsbD 4 = false → ∃ t, step s = .next t ∧ t.dbg.ack = true ∧
      t.dbg.cause = some .breakpoint ∧ t.pc = s.pc + s.len + s.len + s.len ∧ t.regs = s.regs ∧
      t.cpsr = s.cpsr ∧ t.cp15 = s.cp15) ∧
    (s.dbg.ctl.getLsbD 4 = true → s.wordPasses w = true → ∃ t, step s = .next t ∧
      t.cp14.dbgAbt = true ∧ Entered .prefetchAbort (s.pc + 4) s t ∧
      t.cp15 = { s.cp15 with fsr := t.cp15.fsr })) ∧
  (∀ (d : Debug) (ext : BitVec 2) (range1 chain1 : Bool) (y : BusCycle),
    let range := d.unit1.AddressMatches y ∧ d.unit1.DataMatches y range1 chain1 (ext.getLsbD 1)
    ∃ chain r : Bool, (r = true ↔ range) ∧
      (d.compare ext (range1, chain1) y).2 = { d with chainOut := chain } ∧
      (d.unit1.AddressMatches y →
        (chain = true ↔ d.unit1.DataMatches y range1 chain1 (ext.getLsbD 1))) ∧
      (¬ d.unit1.AddressMatches y → chain = d.chainOut) ∧
      ((d.compare ext (range1, chain1) y).1 = true ↔ d.ctl.getLsbD 5 = false ∧
        ((range ∧ d.unit1.ctlValue.getLsbD 8 = true) ∨
          (d.unit0.AddressMatches y ∧ d.unit0.DataMatches y r chain (ext.getLsbD 0) ∧
            d.unit0.ctlValue.getLsbD 8 = true)))) ∧
  (∀ (s : State) (p : Transfer) (r : Route), s.pins.dbgen = true → s.undebugged.Quiet → p.oddHalf = false →
    ∀ y, ((s.IsLoad p ∧ s.Reaches .read p.size p.priv p.addr r ∧ y = s.readCycle p.size p.priv p.addr r) ∨
      (s.IsStore p ∧ s.Reaches .write p.size p.priv p.addr r ∧
        y = writeCycle p.size p.priv p.addr (s.stored p.rd))) →
    (s.dbg.ctl.getLsbD 4 = false → ∃ t, exec p.instr s = .next t ∧
      exec p.instr s.undebugged = .next { t with dbg := s.dbg, pins := s.undebugged.pins } ∧
      t.dbg.pending = (s.dbg.pending || s.triggers y || s.pins.dbgbreak)) ∧
    (s.dbg.ctl.getLsbD 4 = true → s.triggers y = true → ∃ t, exec p.instr s = .next t ∧
      Entered .dataAbort (s.pc + 8) (p.writeBase s) t ∧ t.cp14 = { s.cp14 with dbgAbt := true } ∧
      ∀ a, t.byteAt a = s.byteAt a)) ∧
  ∀ s : State, s.pins.dbgen = true → s.schedule = [] → s.stuck = none → s.dbg.ack = false →
    s.dbg.pending = true → s.interrupt = none →
    ∃ t, step s = .next t ∧ t.dbg.ack = true ∧ t.dbg.cause = some .watchpoint ∧
      t.pc = s.pc + s.len + s.len + (if s.dbg.pendingAbort then 0 else s.len) ∧ t.regs = s.regs ∧
      t.cpsr = s.cpsr ∧ t.cp15 = s.cp15 ∧
      t.memsys = if s.dbg.pendingAbort then (s.fetch s.pc).2.memsys else s.memsys
end

