-- ==== Sys2Proof/Laws/Memory.lean ====
section
/-! SUPPORT. Physical memory: the canonical form and the read-after-write laws. -/

namespace Sys2Proof.Machine

theorem Memory.wfFrom_cons {lo k : Nat} {v : Byte} {rest : Memory} :
    Memory.wfFrom lo ((k, v) :: rest) = true ↔
      lo ≤ k ∧ k < 2 ^ 32 ∧ v ≠ Memory.unlisted ∧ Memory.wfFrom (k + 1) rest = true := by
  simp only [Memory.wfFrom, Bool.and_eq_true, decide_eq_true_eq, bne_iff_ne, and_assoc]

theorem Memory.wfFrom_mono {lo hi : Nat} {m : Memory} (h : Memory.wfFrom hi m = true) (le : lo ≤ hi) :
    Memory.wfFrom lo m = true := by
  cases m with
  | nil => rfl
  | cons e rest =>
    obtain ⟨k, v⟩ := e
    rw [Memory.wfFrom_cons] at *
    exact ⟨le_trans le h.1, h.2⟩

/-- A canonical list says nothing of the addresses below its bound. -/
theorem Memory.get_of_lt {lo a : Nat} {m : Memory} (h : Memory.wfFrom lo m = true) (lt : a < lo) :
    m.get a = Memory.unlisted := by
  cases m with
  | nil => rfl
  | cons e rest =>
    obtain ⟨k, v⟩ := e
    rw [Memory.wfFrom_cons] at h
    simp [Memory.get, lt_of_lt_of_le lt h.1]

theorem Memory.wfFrom_consEntry {lo a : Nat} {v : Byte} {rest : Memory} (le : lo ≤ a) (lt : a < 2 ^ 32)
    (h : Memory.wfFrom (a + 1) rest = true) : Memory.wfFrom lo (Memory.cons a v rest) = true := by
  unfold Memory.cons
  split
  · exact Memory.wfFrom_mono h (by omega)
  · exact Memory.wfFrom_cons.2 ⟨le, lt, by assumption, h⟩

theorem Memory.wfFrom_set {lo a : Nat} {v : Byte} {m : Memory} (h : Memory.wfFrom lo m = true)
    (le : lo ≤ a) (lt : a < 2 ^ 32) : Memory.wfFrom lo (m.set a v) = true := by
  induction m generalizing lo with
  | nil => exact Memory.wfFrom_consEntry le lt rfl
  | cons e rest ih =>
    obtain ⟨k, b⟩ := e
    have hk := Memory.wfFrom_cons.1 h
    simp only [Memory.set]
    split
    · exact Memory.wfFrom_consEntry le lt (Memory.wfFrom_cons.2 ⟨by omega, hk.2⟩)
    · split
      · subst_vars; exact Memory.wfFrom_consEntry le lt hk.2.2.2
      · exact Memory.wfFrom_cons.2 ⟨hk.1, hk.2.1, hk.2.2.1, ih hk.2.2.2 (by omega)⟩

/-- A write keeps the canonical form. -/
theorem Memory.wf_set {m : Memory} {a : Nat} {v : Byte} (h : m.wf = true) (lt : a < 2 ^ 32) :
    (m.set a v).wf = true := Memory.wfFrom_set h (Nat.zero_le a) lt

theorem Memory.get_consEntry {a x lo : Nat} {v : Byte} {rest : Memory}
    (h : Memory.wfFrom lo rest = true) (lt : a < lo) :
    (Memory.cons a v rest).get x = if x = a then v else rest.get x := by
  unfold Memory.cons
  split
  · split
    · subst_vars; exact Memory.get_of_lt h lt
    · rfl
  · simp only [Memory.get]
    split
    · rw [Memory.get_of_lt h (by omega), if_neg (by omega)]
    · rfl

theorem Memory.get_setFrom {lo a x : Nat} {v : Byte} {m : Memory} (h : Memory.wfFrom lo m = true) :
    (m.set a v).get x = if x = a then v else m.get x := by
  induction m generalizing lo with
  | nil => exact Memory.get_consEntry (lo := a + 1) rfl (by omega)
  | cons e rest ih =>
    obtain ⟨k, b⟩ := e
    have hk := Memory.wfFrom_cons.1 h
    simp only [Memory.set]
    split
    · exact Memory.get_consEntry (lo := k) (Memory.wfFrom_cons.2 ⟨le_rfl, hk.2⟩) (by omega)
    · split
      · subst_vars
        rw [Memory.get_consEntry hk.2.2.2 (by omega)]
        simp only [Memory.get]
        by_cases hx : x = k
        · simp [hx]
        · by_cases hl : x < k
          · simp [hx, hl, Memory.get_of_lt hk.2.2.2 (show x < k + 1 by omega)]
          · simp [hx, hl]
      · simp only [Memory.get]
        split
        · simp; omega
        · split
          · rw [if_neg (by omega)]
          · exact ih hk.2.2.2

/-- Reading a byte after writing one: the one written there, every other as before. -/
theorem Memory.get_set {m : Memory} {a x : Nat} {v : Byte} (h : m.wf = true) :
    (m.set a v).get x = if x = a then v else m.get x := Memory.get_setFrom h

theorem laneAddr_lt (big : Bool) (pa : Word) (i : Nat) (hi : i < 4) : laneAddr big pa i < 2 ^ 32 := by
  have := pa.isLt
  unfold laneAddr
  split <;> omega

/-- A write of any width keeps the canonical form. -/
theorem Memory.wf_store {m : Memory} {big : Bool} {n : Size} {pa v : Word} (h : m.wf = true) :
    (m.store big n pa v).wf = true := by
  have lt := pa.isLt
  cases n with
  | byte => exact Memory.wf_set h lt
  | half =>
    unfold Memory.store Memory.setHalf
    exact Memory.wf_set (Memory.wf_set h (by split <;> omega)) (by split <;> omega)
  | word =>
    unfold Memory.store Memory.setWord
    exact Memory.wf_set (Memory.wf_set (Memory.wf_set (Memory.wf_set h (laneAddr_lt _ _ _ (by omega)))
      (laneAddr_lt _ _ _ (by omega))) (laneAddr_lt _ _ _ (by omega))) (laneAddr_lt _ _ _ (by omega))

/-- A byte after a word is stored: the four bytes of the word, every other as before. -/
theorem Memory.get_setWord {m : Memory} {big : Bool} {pa v : Word} {x : Nat} (h : m.wf = true) :
    (m.setWord big pa v).get x =
      if x / 4 = pa.toNat / 4 then v.extractLsb' (8 * (if big then 3 - x % 4 else x % 4)) 8
      else m.get x := by
  have l := fun i (hi : i < 4) => laneAddr_lt big pa i hi
  unfold Memory.setWord
  rw [Memory.get_set (Memory.wf_set (Memory.wf_set (Memory.wf_set h (l 0 (by omega))) (l 1 (by omega)))
      (l 2 (by omega))),
    Memory.get_set (Memory.wf_set (Memory.wf_set h (l 0 (by omega))) (l 1 (by omega))),
    Memory.get_set (Memory.wf_set h (l 0 (by omega))), Memory.get_set h]
  cases big <;> simp only [laneAddr, Bool.false_eq_true, if_false, if_true] <;>
    by_cases hx : x / 4 = pa.toNat / 4
  · have : x % 4 = 0 ∨ x % 4 = 1 ∨ x % 4 = 2 ∨ x % 4 = 3 := by omega
    rw [if_pos hx]
    rcases this with e | e | e | e <;> rw [e]
    · rw [if_neg (by omega), if_neg (by omega), if_neg (by omega), if_pos (by omega)]
    · rw [if_neg (by omega), if_neg (by omega), if_pos (by omega)]
    · rw [if_neg (by omega), if_pos (by omega)]
    · rw [if_pos (by omega)]
  · rw [if_neg hx, if_neg (by omega), if_neg (by omega), if_neg (by omega), if_neg (by omega)]
  · have : x % 4 = 0 ∨ x % 4 = 1 ∨ x % 4 = 2 ∨ x % 4 = 3 := by omega
    rw [if_pos hx]
    rcases this with e | e | e | e <;> rw [e]
    · rw [if_pos (by omega)]
    · rw [if_neg (by omega), if_pos (by omega)]
    · rw [if_neg (by omega), if_neg (by omega), if_pos (by omega)]
    · rw [if_neg (by omega), if_neg (by omega), if_neg (by omega), if_pos (by omega)]
  · rw [if_neg hx, if_neg (by omega), if_neg (by omega), if_neg (by omega), if_neg (by omega)]

/-- A byte after a halfword is stored. -/
theorem Memory.get_setHalf {m : Memory} {big : Bool} {pa v : Word} {x : Nat} (h : m.wf = true) :
    (m.setHalf big pa v).get x =
      if x / 2 = pa.toNat / 2 then v.extractLsb' (8 * (if big then 1 - x % 2 else x % 2)) 8
      else m.get x := by
  have lt := pa.isLt
  unfold Memory.setHalf
  rw [Memory.get_set (Memory.wf_set h (by split <;> omega)), Memory.get_set h]
  cases big <;> simp only [Bool.false_eq_true, if_false, if_true] <;>
    by_cases hx : x / 2 = pa.toNat / 2
  · have : x % 2 = 0 ∨ x % 2 = 1 := by omega
    rw [if_pos hx]
    rcases this with e | e <;> rw [e]
    · rw [if_neg (by omega), if_pos (by omega)]
    · rw [if_pos (by omega)]
  · rw [if_neg hx, if_neg (by omega), if_neg (by omega)]
  · have : x % 2 = 0 ∨ x % 2 = 1 := by omega
    rw [if_pos hx]
    rcases this with e | e <;> rw [e]
    · rw [if_pos (by omega)]
    · rw [if_neg (by omega), if_pos (by omega)]
  · rw [if_neg hx, if_neg (by omega), if_neg (by omega)]

theorem Memory.reset_wf : MemSys.reset.mem.wf = true := rfl

end Sys2Proof.Machine
end

