-- ==== Sys2Proof/Laws/State.lean ====
section
/-! SUPPORT. What each update of the state leaves in each field, so that no proof unfolds an update; the
banks of registers; the flags; taking an exception. -/

namespace Sys2Proof.Machine
/-! ## setBankReg -/
@[simp] theorem State.setBankReg_pc (m : Mode) (i : Reg) (v : Word) (s : State) : (s.setBankReg m i v).pc = s.pc := by
  unfold State.setBankReg; split <;> rfl
@[simp] theorem State.setBankReg_cpsr (m : Mode) (i : Reg) (v : Word) (s : State) : (s.setBankReg m i v).cpsr = s.cpsr := by
  unfold State.setBankReg; split <;> rfl
@[simp] theorem State.setBankReg_spsrFiq (m : Mode) (i : Reg) (v : Word) (s : State) : (s.setBankReg m i v).spsrFiq = s.spsrFiq := by
  unfold State.setBankReg; split <;> rfl
@[simp] theorem State.setBankReg_spsrIrq (m : Mode) (i : Reg) (v : Word) (s : State) : (s.setBankReg m i v).spsrIrq = s.spsrIrq := by
  unfold State.setBankReg; split <;> rfl
@[simp] theorem State.setBankReg_spsrSvc (m : Mode) (i : Reg) (v : Word) (s : State) : (s.setBankReg m i v).spsrSvc = s.spsrSvc := by
  unfold State.setBankReg; split <;> rfl
@[simp] theorem State.setBankReg_spsrAbt (m : Mode) (i : Reg) (v : Word) (s : State) : (s.setBankReg m i v).spsrAbt = s.spsrAbt := by
  unfold State.setBankReg; split <;> rfl
@[simp] theorem State.setBankReg_spsrUnd (m : Mode) (i : Reg) (v : Word) (s : State) : (s.setBankReg m i v).spsrUnd = s.spsrUnd := by
  unfold State.setBankReg; split <;> rfl
@[simp] theorem State.setBankReg_cp15 (m : Mode) (i : Reg) (v : Word) (s : State) : (s.setBankReg m i v).cp15 = s.cp15 := by
  unfold State.setBankReg; split <;> rfl
@[simp] theorem State.setBankReg_cp14 (m : Mode) (i : Reg) (v : Word) (s : State) : (s.setBankReg m i v).cp14 = s.cp14 := by
  unfold State.setBankReg; split <;> rfl
@[simp] theorem State.setBankReg_memsys (m : Mode) (i : Reg) (v : Word) (s : State) : (s.setBankReg m i v).memsys = s.memsys := by
  unfold State.setBankReg; split <;> rfl
@[simp] theorem State.setBankReg_debug (m : Mode) (i : Reg) (v : Word) (s : State) : (s.setBankReg m i v).dbg = s.dbg := by
  unfold State.setBankReg; split <;> rfl
@[simp] theorem State.setBankReg_pipe (m : Mode) (i : Reg) (v : Word) (s : State) : (s.setBankReg m i v).pipe = s.pipe := by
  unfold State.setBankReg; split <;> rfl
@[simp] theorem State.setBankReg_pins (m : Mode) (i : Reg) (v : Word) (s : State) : (s.setBankReg m i v).pins = s.pins := by
  unfold State.setBankReg; split <;> rfl
@[simp] theorem State.setBankReg_thumbBuffer (m : Mode) (i : Reg) (v : Word) (s : State) : (s.setBankReg m i v).thumbBuffer = s.thumbBuffer := by
  unfold State.setBankReg; split <;> rfl
@[simp] theorem State.setBankReg_platform (m : Mode) (i : Reg) (v : Word) (s : State) : (s.setBankReg m i v).platform = s.platform := by
  unfold State.setBankReg; split <;> rfl
@[simp] theorem State.setBankReg_coproc (m : Mode) (i : Reg) (v : Word) (s : State) : (s.setBankReg m i v).coproc = s.coproc := by
  unfold State.setBankReg; split <;> rfl
@[simp] theorem State.setBankReg_calls (m : Mode) (i : Reg) (v : Word) (s : State) : (s.setBankReg m i v).calls = s.calls := by
  unfold State.setBankReg; split <;> rfl
@[simp] theorem State.setBankReg_schedule (m : Mode) (i : Reg) (v : Word) (s : State) : (s.setBankReg m i v).schedule = s.schedule := by
  unfold State.setBankReg; split <;> rfl
@[simp] theorem State.setBankReg_userBank (m : Mode) (i : Reg) (v : Word) (s : State) : (s.setBankReg m i v).userBank = s.userBank := by
  unfold State.setBankReg; split <;> rfl
@[simp] theorem State.setBankReg_offTop (m : Mode) (i : Reg) (v : Word) (s : State) : (s.setBankReg m i v).offTop = s.offTop := by
  unfold State.setBankReg; split <;> rfl
@[simp] theorem State.setBankReg_stuck (m : Mode) (i : Reg) (v : Word) (s : State) : (s.setBankReg m i v).stuck = s.stuck := by
  unfold State.setBankReg; split <;> rfl
@[simp] theorem State.setBankReg_draws (m : Mode) (i : Reg) (v : Word) (s : State) : (s.setBankReg m i v).draws = s.draws := by
  unfold State.setBankReg; split <;> rfl
/-! ## setReg -/
@[simp] theorem State.setReg_pc (i : Reg) (v : Word) (s : State) : (s.setReg i v).pc = s.pc := by
  simp [State.setReg]
@[simp] theorem State.setReg_cpsr (i : Reg) (v : Word) (s : State) : (s.setReg i v).cpsr = s.cpsr := by
  simp [State.setReg]
@[simp] theorem State.setReg_spsrFiq (i : Reg) (v : Word) (s : State) : (s.setReg i v).spsrFiq = s.spsrFiq := by
  simp [State.setReg]
@[simp] theorem State.setReg_spsrIrq (i : Reg) (v : Word) (s : State) : (s.setReg i v).spsrIrq = s.spsrIrq := by
  simp [State.setReg]
@[simp] theorem State.setReg_spsrSvc (i : Reg) (v : Word) (s : State) : (s.setReg i v).spsrSvc = s.spsrSvc := by
  simp [State.setReg]
@[simp] theorem State.setReg_spsrAbt (i : Reg) (v : Word) (s : State) : (s.setReg i v).spsrAbt = s.spsrAbt := by
  simp [State.setReg]
@[simp] theorem State.setReg_spsrUnd (i : Reg) (v : Word) (s : State) : (s.setReg i v).spsrUnd = s.spsrUnd := by
  simp [State.setReg]
@[simp] theorem State.setReg_cp15 (i : Reg) (v : Word) (s : State) : (s.setReg i v).cp15 = s.cp15 := by
  simp [State.setReg]
@[simp] theorem State.setReg_cp14 (i : Reg) (v : Word) (s : State) : (s.setReg i v).cp14 = s.cp14 := by
  simp [State.setReg]
@[simp] theorem State.setReg_memsys (i : Reg) (v : Word) (s : State) : (s.setReg i v).memsys = s.memsys := by
  simp [State.setReg]
@[simp] theorem State.setReg_debug (i : Reg) (v : Word) (s : State) : (s.setReg i v).dbg = s.dbg := by
  simp [State.setReg]
@[simp] theorem State.setReg_pipe (i : Reg) (v : Word) (s : State) : (s.setReg i v).pipe = s.pipe := by
  simp [State.setReg]
@[simp] theorem State.setReg_pins (i : Reg) (v : Word) (s : State) : (s.setReg i v).pins = s.pins := by
  simp [State.setReg]
@[simp] theorem State.setReg_thumbBuffer (i : Reg) (v : Word) (s : State) : (s.setReg i v).thumbBuffer = s.thumbBuffer := by
  simp [State.setReg]
@[simp] theorem State.setReg_platform (i : Reg) (v : Word) (s : State) : (s.setReg i v).platform = s.platform := by
  simp [State.setReg]
@[simp] theorem State.setReg_coproc (i : Reg) (v : Word) (s : State) : (s.setReg i v).coproc = s.coproc := by
  simp [State.setReg]
@[simp] theorem State.setReg_calls (i : Reg) (v : Word) (s : State) : (s.setReg i v).calls = s.calls := by
  simp [State.setReg]
@[simp] theorem State.setReg_schedule (i : Reg) (v : Word) (s : State) : (s.setReg i v).schedule = s.schedule := by
  simp [State.setReg]
@[simp] theorem State.setReg_userBank (i : Reg) (v : Word) (s : State) : (s.setReg i v).userBank = s.userBank := by
  simp [State.setReg]
@[simp] theorem State.setReg_offTop (i : Reg) (v : Word) (s : State) : (s.setReg i v).offTop = s.offTop := by
  simp [State.setReg]
@[simp] theorem State.setReg_stuck (i : Reg) (v : Word) (s : State) : (s.setReg i v).stuck = s.stuck := by
  simp [State.setReg]
@[simp] theorem State.setReg_draws (i : Reg) (v : Word) (s : State) : (s.setReg i v).draws = s.draws := by
  simp [State.setReg]
/-! ## setFlags -/
@[simp] theorem State.setFlags_regs (n z c v : Bool) (s : State) : (s.setFlags n z c v).regs = s.regs := rfl
@[simp] theorem State.setFlags_pc (n z c v : Bool) (s : State) : (s.setFlags n z c v).pc = s.pc := rfl
@[simp] theorem State.setFlags_spsrFiq (n z c v : Bool) (s : State) : (s.setFlags n z c v).spsrFiq = s.spsrFiq := rfl
@[simp] theorem State.setFlags_spsrIrq (n z c v : Bool) (s : State) : (s.setFlags n z c v).spsrIrq = s.spsrIrq := rfl
@[simp] theorem State.setFlags_spsrSvc (n z c v : Bool) (s : State) : (s.setFlags n z c v).spsrSvc = s.spsrSvc := rfl
@[simp] theorem State.setFlags_spsrAbt (n z c v : Bool) (s : State) : (s.setFlags n z c v).spsrAbt = s.spsrAbt := rfl
@[simp] theorem State.setFlags_spsrUnd (n z c v : Bool) (s : State) : (s.setFlags n z c v).spsrUnd = s.spsrUnd := rfl
@[simp] theorem State.setFlags_cp15 (n z c v : Bool) (s : State) : (s.setFlags n z c v).cp15 = s.cp15 := rfl
@[simp] theorem State.setFlags_cp14 (n z c v : Bool) (s : State) : (s.setFlags n z c v).cp14 = s.cp14 := rfl
@[simp] theorem State.setFlags_memsys (n z c v : Bool) (s : State) : (s.setFlags n z c v).memsys = s.memsys := rfl
@[simp] theorem State.setFlags_debug (n z c v : Bool) (s : State) : (s.setFlags n z c v).dbg = s.dbg := rfl
@[simp] theorem State.setFlags_pipe (n z c v : Bool) (s : State) : (s.setFlags n z c v).pipe = s.pipe := rfl
@[simp] theorem State.setFlags_pins (n z c v : Bool) (s : State) : (s.setFlags n z c v).pins = s.pins := rfl
@[simp] theorem State.setFlags_thumbBuffer (n z c v : Bool) (s : State) : (s.setFlags n z c v).thumbBuffer = s.thumbBuffer := rfl
@[simp] theorem State.setFlags_platform (n z c v : Bool) (s : State) : (s.setFlags n z c v).platform = s.platform := rfl
@[simp] theorem State.setFlags_coproc (n z c v : Bool) (s : State) : (s.setFlags n z c v).coproc = s.coproc := rfl
@[simp] theorem State.setFlags_calls (n z c v : Bool) (s : State) : (s.setFlags n z c v).calls = s.calls := rfl
@[simp] theorem State.setFlags_schedule (n z c v : Bool) (s : State) : (s.setFlags n z c v).schedule = s.schedule := rfl
@[simp] theorem State.setFlags_userBank (n z c v : Bool) (s : State) : (s.setFlags n z c v).userBank = s.userBank := rfl
@[simp] theorem State.setFlags_offTop (n z c v : Bool) (s : State) : (s.setFlags n z c v).offTop = s.offTop := rfl
@[simp] theorem State.setFlags_stuck (n z c v : Bool) (s : State) : (s.setFlags n z c v).stuck = s.stuck := rfl
@[simp] theorem State.setFlags_draws (n z c v : Bool) (s : State) : (s.setFlags n z c v).draws = s.draws := rfl
/-! ## setAluFlags -/
@[simp] theorem State.setAluFlags_regs (a : Alu) (s : State) : (s.setAluFlags a).regs = s.regs := rfl
@[simp] theorem State.setAluFlags_pc (a : Alu) (s : State) : (s.setAluFlags a).pc = s.pc := rfl
@[simp] theorem State.setAluFlags_spsrFiq (a : Alu) (s : State) : (s.setAluFlags a).spsrFiq = s.spsrFiq := rfl
@[simp] theorem State.setAluFlags_spsrIrq (a : Alu) (s : State) : (s.setAluFlags a).spsrIrq = s.spsrIrq := rfl
@[simp] theorem State.setAluFlags_spsrSvc (a : Alu) (s : State) : (s.setAluFlags a).spsrSvc = s.spsrSvc := rfl
@[simp] theorem State.setAluFlags_spsrAbt (a : Alu) (s : State) : (s.setAluFlags a).spsrAbt = s.spsrAbt := rfl
@[simp] theorem State.setAluFlags_spsrUnd (a : Alu) (s : State) : (s.setAluFlags a).spsrUnd = s.spsrUnd := rfl
@[simp] theorem State.setAluFlags_cp15 (a : Alu) (s : State) : (s.setAluFlags a).cp15 = s.cp15 := rfl
@[simp] theorem State.setAluFlags_cp14 (a : Alu) (s : State) : (s.setAluFlags a).cp14 = s.cp14 := rfl
@[simp] theorem State.setAluFlags_memsys (a : Alu) (s : State) : (s.setAluFlags a).memsys = s.memsys := rfl
@[simp] theorem State.setAluFlags_debug (a : Alu) (s : State) : (s.setAluFlags a).dbg = s.dbg := rfl
@[simp] theorem State.setAluFlags_pipe (a : Alu) (s : State) : (s.setAluFlags a).pipe = s.pipe := rfl
@[simp] theorem State.setAluFlags_pins (a : Alu) (s : State) : (s.setAluFlags a).pins = s.pins := rfl
@[simp] theorem State.setAluFlags_thumbBuffer (a : Alu) (s : State) : (s.setAluFlags a).thumbBuffer = s.thumbBuffer := rfl
@[simp] theorem State.setAluFlags_platform (a : Alu) (s : State) : (s.setAluFlags a).platform = s.platform := rfl
@[simp] theorem State.setAluFlags_coproc (a : Alu) (s : State) : (s.setAluFlags a).coproc = s.coproc := rfl
@[simp] theorem State.setAluFlags_calls (a : Alu) (s : State) : (s.setAluFlags a).calls = s.calls := rfl
@[simp] theorem State.setAluFlags_schedule (a : Alu) (s : State) : (s.setAluFlags a).schedule = s.schedule := rfl
@[simp] theorem State.setAluFlags_userBank (a : Alu) (s : State) : (s.setAluFlags a).userBank = s.userBank := rfl
@[simp] theorem State.setAluFlags_offTop (a : Alu) (s : State) : (s.setAluFlags a).offTop = s.offTop := rfl
@[simp] theorem State.setAluFlags_stuck (a : Alu) (s : State) : (s.setAluFlags a).stuck = s.stuck := rfl
@[simp] theorem State.setAluFlags_draws (a : Alu) (s : State) : (s.setAluFlags a).draws = s.draws := rfl
/-! ## advance -/
@[simp] theorem State.advance_regs (s : State) : s.advance.regs = s.regs := rfl
@[simp] theorem State.advance_cpsr (s : State) : s.advance.cpsr = s.cpsr := rfl
@[simp] theorem State.advance_spsrFiq (s : State) : s.advance.spsrFiq = s.spsrFiq := rfl
@[simp] theorem State.advance_spsrIrq (s : State) : s.advance.spsrIrq = s.spsrIrq := rfl
@[simp] theorem State.advance_spsrSvc (s : State) : s.advance.spsrSvc = s.spsrSvc := rfl
@[simp] theorem State.advance_spsrAbt (s : State) : s.advance.spsrAbt = s.spsrAbt := rfl
@[simp] theorem State.advance_spsrUnd (s : State) : s.advance.spsrUnd = s.spsrUnd := rfl
@[simp] theorem State.advance_cp15 (s : State) : s.advance.cp15 = s.cp15 := rfl
@[simp] theorem State.advance_cp14 (s : State) : s.advance.cp14 = s.cp14 := rfl
@[simp] theorem State.advance_memsys (s : State) : s.advance.memsys = s.memsys := rfl
@[simp] theorem State.advance_debug (s : State) : s.advance.dbg = s.dbg := rfl
@[simp] theorem State.advance_pins (s : State) : s.advance.pins = s.pins := rfl
@[simp] theorem State.advance_thumbBuffer (s : State) : s.advance.thumbBuffer = s.thumbBuffer := rfl
@[simp] theorem State.advance_platform (s : State) : s.advance.platform = s.platform := rfl
@[simp] theorem State.advance_coproc (s : State) : s.advance.coproc = s.coproc := rfl
@[simp] theorem State.advance_calls (s : State) : s.advance.calls = s.calls := rfl
@[simp] theorem State.advance_schedule (s : State) : s.advance.schedule = s.schedule := rfl
@[simp] theorem State.advance_userBank (s : State) : s.advance.userBank = s.userBank := rfl
@[simp] theorem State.advance_stuck (s : State) : s.advance.stuck = s.stuck := rfl
@[simp] theorem State.advance_draws (s : State) : s.advance.draws = s.draws := rfl
/-! ## branchTo -/
@[simp] theorem State.branchTo_regs (v : Word) (s : State) : (s.branchTo v).regs = s.regs := rfl
@[simp] theorem State.branchTo_cpsr (v : Word) (s : State) : (s.branchTo v).cpsr = s.cpsr := rfl
@[simp] theorem State.branchTo_spsrFiq (v : Word) (s : State) : (s.branchTo v).spsrFiq = s.spsrFiq := rfl
@[simp] theorem State.branchTo_spsrIrq (v : Word) (s : State) : (s.branchTo v).spsrIrq = s.spsrIrq := rfl
@[simp] theorem State.branchTo_spsrSvc (v : Word) (s : State) : (s.branchTo v).spsrSvc = s.spsrSvc := rfl
@[simp] theorem State.branchTo_spsrAbt (v : Word) (s : State) : (s.branchTo v).spsrAbt = s.spsrAbt := rfl
@[simp] theorem State.branchTo_spsrUnd (v : Word) (s : State) : (s.branchTo v).spsrUnd = s.spsrUnd := rfl
@[simp] theorem State.branchTo_cp15 (v : Word) (s : State) : (s.branchTo v).cp15 = s.cp15 := rfl
@[simp] theorem State.branchTo_cp14 (v : Word) (s : State) : (s.branchTo v).cp14 = s.cp14 := rfl
@[simp] theorem State.branchTo_memsys (v : Word) (s : State) : (s.branchTo v).memsys = s.memsys := rfl
@[simp] theorem State.branchTo_debug (v : Word) (s : State) : (s.branchTo v).dbg = s.dbg := rfl
@[simp] theorem State.branchTo_pins (v : Word) (s : State) : (s.branchTo v).pins = s.pins := rfl
@[simp] theorem State.branchTo_thumbBuffer (v : Word) (s : State) : (s.branchTo v).thumbBuffer = s.thumbBuffer := rfl
@[simp] theorem State.branchTo_platform (v : Word) (s : State) : (s.branchTo v).platform = s.platform := rfl
@[simp] theorem State.branchTo_coproc (v : Word) (s : State) : (s.branchTo v).coproc = s.coproc := rfl
@[simp] theorem State.branchTo_calls (v : Word) (s : State) : (s.branchTo v).calls = s.calls := rfl
@[simp] theorem State.branchTo_schedule (v : Word) (s : State) : (s.branchTo v).schedule = s.schedule := rfl
@[simp] theorem State.branchTo_userBank (v : Word) (s : State) : (s.branchTo v).userBank = s.userBank := rfl
@[simp] theorem State.branchTo_stuck (v : Word) (s : State) : (s.branchTo v).stuck = s.stuck := rfl
@[simp] theorem State.branchTo_draws (v : Word) (s : State) : (s.branchTo v).draws = s.draws := rfl
/-! ## setThumb -/
@[simp] theorem State.setThumb_regs (b : Bool) (s : State) : (s.setThumb b).regs = s.regs := rfl
@[simp] theorem State.setThumb_pc (b : Bool) (s : State) : (s.setThumb b).pc = s.pc := rfl
@[simp] theorem State.setThumb_spsrFiq (b : Bool) (s : State) : (s.setThumb b).spsrFiq = s.spsrFiq := rfl
@[simp] theorem State.setThumb_spsrIrq (b : Bool) (s : State) : (s.setThumb b).spsrIrq = s.spsrIrq := rfl
@[simp] theorem State.setThumb_spsrSvc (b : Bool) (s : State) : (s.setThumb b).spsrSvc = s.spsrSvc := rfl
@[simp] theorem State.setThumb_spsrAbt (b : Bool) (s : State) : (s.setThumb b).spsrAbt = s.spsrAbt := rfl
@[simp] theorem State.setThumb_spsrUnd (b : Bool) (s : State) : (s.setThumb b).spsrUnd = s.spsrUnd := rfl
@[simp] theorem State.setThumb_cp15 (b : Bool) (s : State) : (s.setThumb b).cp15 = s.cp15 := rfl
@[simp] theorem State.setThumb_cp14 (b : Bool) (s : State) : (s.setThumb b).cp14 = s.cp14 := rfl
@[simp] theorem State.setThumb_memsys (b : Bool) (s : State) : (s.setThumb b).memsys = s.memsys := rfl
@[simp] theorem State.setThumb_debug (b : Bool) (s : State) : (s.setThumb b).dbg = s.dbg := rfl
@[simp] theorem State.setThumb_pipe (b : Bool) (s : State) : (s.setThumb b).pipe = s.pipe := rfl
@[simp] theorem State.setThumb_pins (b : Bool) (s : State) : (s.setThumb b).pins = s.pins := rfl
@[simp] theorem State.setThumb_thumbBuffer (b : Bool) (s : State) : (s.setThumb b).thumbBuffer = s.thumbBuffer := rfl
@[simp] theorem State.setThumb_platform (b : Bool) (s : State) : (s.setThumb b).platform = s.platform := rfl
@[simp] theorem State.setThumb_coproc (b : Bool) (s : State) : (s.setThumb b).coproc = s.coproc := rfl
@[simp] theorem State.setThumb_calls (b : Bool) (s : State) : (s.setThumb b).calls = s.calls := rfl
@[simp] theorem State.setThumb_schedule (b : Bool) (s : State) : (s.setThumb b).schedule = s.schedule := rfl
@[simp] theorem State.setThumb_userBank (b : Bool) (s : State) : (s.setThumb b).userBank = s.userBank := rfl
@[simp] theorem State.setThumb_offTop (b : Bool) (s : State) : (s.setThumb b).offTop = s.offTop := rfl
@[simp] theorem State.setThumb_stuck (b : Bool) (s : State) : (s.setThumb b).stuck = s.stuck := rfl
@[simp] theorem State.setThumb_draws (b : Bool) (s : State) : (s.setThumb b).draws = s.draws := rfl
/-! ## draw -/
@[simp] theorem State.draw_regs (s : State) : s.draw.2.regs = s.regs := rfl
@[simp] theorem State.draw_pc (s : State) : s.draw.2.pc = s.pc := rfl
@[simp] theorem State.draw_cpsr (s : State) : s.draw.2.cpsr = s.cpsr := rfl
@[simp] theorem State.draw_spsrFiq (s : State) : s.draw.2.spsrFiq = s.spsrFiq := rfl
@[simp] theorem State.draw_spsrIrq (s : State) : s.draw.2.spsrIrq = s.spsrIrq := rfl
@[simp] theorem State.draw_spsrSvc (s : State) : s.draw.2.spsrSvc = s.spsrSvc := rfl
@[simp] theorem State.draw_spsrAbt (s : State) : s.draw.2.spsrAbt = s.spsrAbt := rfl
@[simp] theorem State.draw_spsrUnd (s : State) : s.draw.2.spsrUnd = s.spsrUnd := rfl
@[simp] theorem State.draw_cp15 (s : State) : s.draw.2.cp15 = s.cp15 := rfl
@[simp] theorem State.draw_cp14 (s : State) : s.draw.2.cp14 = s.cp14 := rfl
@[simp] theorem State.draw_memsys (s : State) : s.draw.2.memsys = s.memsys := rfl
@[simp] theorem State.draw_debug (s : State) : s.draw.2.dbg = s.dbg := rfl
@[simp] theorem State.draw_pipe (s : State) : s.draw.2.pipe = s.pipe := rfl
@[simp] theorem State.draw_pins (s : State) : s.draw.2.pins = s.pins := rfl
@[simp] theorem State.draw_thumbBuffer (s : State) : s.draw.2.thumbBuffer = s.thumbBuffer := rfl
@[simp] theorem State.draw_platform (s : State) : s.draw.2.platform = s.platform := rfl
@[simp] theorem State.draw_coproc (s : State) : s.draw.2.coproc = s.coproc := rfl
@[simp] theorem State.draw_calls (s : State) : s.draw.2.calls = s.calls := rfl
@[simp] theorem State.draw_schedule (s : State) : s.draw.2.schedule = s.schedule := rfl
@[simp] theorem State.draw_userBank (s : State) : s.draw.2.userBank = s.userBank := rfl
@[simp] theorem State.draw_offTop (s : State) : s.draw.2.offTop = s.offTop := rfl
@[simp] theorem State.draw_stuck (s : State) : s.draw.2.stuck = s.stuck := rfl
/-! ## recordAbort -/
@[simp] theorem State.recordAbort_regs (i : AbortInfo) (s : State) : (s.recordAbort i).regs = s.regs := rfl
@[simp] theorem State.recordAbort_pc (i : AbortInfo) (s : State) : (s.recordAbort i).pc = s.pc := rfl
@[simp] theorem State.recordAbort_cpsr (i : AbortInfo) (s : State) : (s.recordAbort i).cpsr = s.cpsr := rfl
@[simp] theorem State.recordAbort_spsrFiq (i : AbortInfo) (s : State) : (s.recordAbort i).spsrFiq = s.spsrFiq := rfl
@[simp] theorem State.recordAbort_spsrIrq (i : AbortInfo) (s : State) : (s.recordAbort i).spsrIrq = s.spsrIrq := rfl
@[simp] theorem State.recordAbort_spsrSvc (i : AbortInfo) (s : State) : (s.recordAbort i).spsrSvc = s.spsrSvc := rfl
@[simp] theorem State.recordAbort_spsrAbt (i : AbortInfo) (s : State) : (s.recordAbort i).spsrAbt = s.spsrAbt := rfl
@[simp] theorem State.recordAbort_spsrUnd (i : AbortInfo) (s : State) : (s.recordAbort i).spsrUnd = s.spsrUnd := rfl
@[simp] theorem State.recordAbort_cp14 (i : AbortInfo) (s : State) : (s.recordAbort i).cp14 = s.cp14 := rfl
@[simp] theorem State.recordAbort_memsys (i : AbortInfo) (s : State) : (s.recordAbort i).memsys = s.memsys := rfl
@[simp] theorem State.recordAbort_debug (i : AbortInfo) (s : State) : (s.recordAbort i).dbg = s.dbg := rfl
@[simp] theorem State.recordAbort_pipe (i : AbortInfo) (s : State) : (s.recordAbort i).pipe = s.pipe := rfl
@[simp] theorem State.recordAbort_pins (i : AbortInfo) (s : State) : (s.recordAbort i).pins = s.pins := rfl
@[simp] theorem State.recordAbort_thumbBuffer (i : AbortInfo) (s : State) : (s.recordAbort i).thumbBuffer = s.thumbBuffer := rfl
@[simp] theorem State.recordAbort_platform (i : AbortInfo) (s : State) : (s.recordAbort i).platform = s.platform := rfl
@[simp] theorem State.recordAbort_coproc (i : AbortInfo) (s : State) : (s.recordAbort i).coproc = s.coproc := rfl
@[simp] theorem State.recordAbort_calls (i : AbortInfo) (s : State) : (s.recordAbort i).calls = s.calls := rfl
@[simp] theorem State.recordAbort_schedule (i : AbortInfo) (s : State) : (s.recordAbort i).schedule = s.schedule := rfl
@[simp] theorem State.recordAbort_userBank (i : AbortInfo) (s : State) : (s.recordAbort i).userBank = s.userBank := rfl
@[simp] theorem State.recordAbort_offTop (i : AbortInfo) (s : State) : (s.recordAbort i).offTop = s.offTop := rfl
@[simp] theorem State.recordAbort_stuck (i : AbortInfo) (s : State) : (s.recordAbort i).stuck = s.stuck := rfl
@[simp] theorem State.recordAbort_draws (i : AbortInfo) (s : State) : (s.recordAbort i).draws = s.draws := rfl
/-! ## setSpsrOf -/
@[simp] theorem State.setSpsrOf_regs (m : Mode) (v : Word) (s : State) : (s.setSpsrOf m v).regs = s.regs := by
  cases m <;> rfl
@[simp] theorem State.setSpsrOf_pc (m : Mode) (v : Word) (s : State) : (s.setSpsrOf m v).pc = s.pc := by
  cases m <;> rfl
@[simp] theorem State.setSpsrOf_cpsr (m : Mode) (v : Word) (s : State) : (s.setSpsrOf m v).cpsr = s.cpsr := by
  cases m <;> rfl
@[simp] theorem State.setSpsrOf_cp15 (m : Mode) (v : Word) (s : State) : (s.setSpsrOf m v).cp15 = s.cp15 := by
  cases m <;> rfl
@[simp] theorem State.setSpsrOf_cp14 (m : Mode) (v : Word) (s : State) : (s.setSpsrOf m v).cp14 = s.cp14 := by
  cases m <;> rfl
@[simp] theorem State.setSpsrOf_memsys (m : Mode) (v : Word) (s : State) : (s.setSpsrOf m v).memsys = s.memsys := by
  cases m <;> rfl
@[simp] theorem State.setSpsrOf_debug (m : Mode) (v : Word) (s : State) : (s.setSpsrOf m v).dbg = s.dbg := by
  cases m <;> rfl
@[simp] theorem State.setSpsrOf_pipe (m : Mode) (v : Word) (s : State) : (s.setSpsrOf m v).pipe = s.pipe := by
  cases m <;> rfl
@[simp] theorem State.setSpsrOf_pins (m : Mode) (v : Word) (s : State) : (s.setSpsrOf m v).pins = s.pins := by
  cases m <;> rfl
@[simp] theorem State.setSpsrOf_thumbBuffer (m : Mode) (v : Word) (s : State) : (s.setSpsrOf m v).thumbBuffer = s.thumbBuffer := by
  cases m <;> rfl
@[simp] theorem State.setSpsrOf_platform (m : Mode) (v : Word) (s : State) : (s.setSpsrOf m v).platform = s.platform := by
  cases m <;> rfl
@[simp] theorem State.setSpsrOf_coproc (m : Mode) (v : Word) (s : State) : (s.setSpsrOf m v).coproc = s.coproc := by
  cases m <;> rfl
@[simp] theorem State.setSpsrOf_calls (m : Mode) (v : Word) (s : State) : (s.setSpsrOf m v).calls = s.calls := by
  cases m <;> rfl
@[simp] theorem State.setSpsrOf_schedule (m : Mode) (v : Word) (s : State) : (s.setSpsrOf m v).schedule = s.schedule := by
  cases m <;> rfl
@[simp] theorem State.setSpsrOf_userBank (m : Mode) (v : Word) (s : State) : (s.setSpsrOf m v).userBank = s.userBank := by
  cases m <;> rfl
@[simp] theorem State.setSpsrOf_offTop (m : Mode) (v : Word) (s : State) : (s.setSpsrOf m v).offTop = s.offTop := by
  cases m <;> rfl
@[simp] theorem State.setSpsrOf_stuck (m : Mode) (v : Word) (s : State) : (s.setSpsrOf m v).stuck = s.stuck := by
  cases m <;> rfl
@[simp] theorem State.setSpsrOf_draws (m : Mode) (v : Word) (s : State) : (s.setSpsrOf m v).draws = s.draws := by
  cases m <;> rfl
/-! ## enter -/
@[simp] theorem State.enter_cp15 (e : Exc) (ret : Word) (s : State) : (s.enter e ret).cp15 = s.cp15 := by
  simp [State.enter]
@[simp] theorem State.enter_cp14 (e : Exc) (ret : Word) (s : State) : (s.enter e ret).cp14 = s.cp14 := by
  simp [State.enter]
@[simp] theorem State.enter_memsys (e : Exc) (ret : Word) (s : State) : (s.enter e ret).memsys = s.memsys := by
  simp [State.enter]
@[simp] theorem State.enter_debug (e : Exc) (ret : Word) (s : State) : (s.enter e ret).dbg = s.dbg := by
  simp [State.enter]
@[simp] theorem State.enter_pins (e : Exc) (ret : Word) (s : State) : (s.enter e ret).pins = s.pins := by
  simp [State.enter]
@[simp] theorem State.enter_thumbBuffer (e : Exc) (ret : Word) (s : State) : (s.enter e ret).thumbBuffer = s.thumbBuffer := by
  simp [State.enter]
@[simp] theorem State.enter_platform (e : Exc) (ret : Word) (s : State) : (s.enter e ret).platform = s.platform := by
  simp [State.enter]
@[simp] theorem State.enter_coproc (e : Exc) (ret : Word) (s : State) : (s.enter e ret).coproc = s.coproc := by
  simp [State.enter]
@[simp] theorem State.enter_calls (e : Exc) (ret : Word) (s : State) : (s.enter e ret).calls = s.calls := by
  simp [State.enter]
@[simp] theorem State.enter_schedule (e : Exc) (ret : Word) (s : State) : (s.enter e ret).schedule = s.schedule := by
  simp [State.enter]
@[simp] theorem State.enter_stuck (e : Exc) (ret : Word) (s : State) : (s.enter e ret).stuck = s.stuck := by
  simp [State.enter]
@[simp] theorem State.enter_draws (e : Exc) (ret : Word) (s : State) : (s.enter e ret).draws = s.draws := by
  simp [State.enter]

/-! ## The fields an update writes -/

@[simp] theorem State.advance_pc (s : State) : s.advance.pc = s.pc + s.len := rfl
@[simp] theorem State.branchTo_pc (v : Word) (s : State) : (s.branchTo v).pc = alignPc s.thumb v := rfl
@[simp] theorem State.branchTo_pipe (v : Word) (s : State) : (s.branchTo v).pipe = [] := rfl
@[simp] theorem State.setFlags_cpsr (n z c v : Bool) (s : State) :
    (s.setFlags n z c v).cpsr = withFlags s.cpsr n z c v := rfl
@[simp] theorem State.setAluFlags_cpsr (a : Alu) (s : State) :
    (s.setAluFlags a).cpsr = withFlags s.cpsr a.n a.z a.c a.v := rfl
@[simp] theorem State.recordAbort_cp15 (i : AbortInfo) (s : State) :
    (s.recordAbort i).cp15 = { s.cp15 with fsr := i.domain ++ i.code, far := i.addr } := rfl
@[simp] theorem State.enter_cpsr (e : Exc) (ret : Word) (s : State) :
    (s.enter e ret).cpsr = exceptionCpsr e s.cpsr := by
  simp [State.enter]
@[simp] theorem State.enter_pc (e : Exc) (ret : Word) (s : State) :
    (s.enter e ret).pc = s.cp15.vectorBase + e.offset := by
  simp [State.enter]
@[simp] theorem State.enter_pipe (e : Exc) (ret : Word) (s : State) : (s.enter e ret).pipe = [] := rfl
@[simp] theorem State.enter_userBank (e : Exc) (ret : Word) (s : State) :
    (s.enter e ret).userBank = false := rfl
@[simp] theorem State.enter_regs (e : Exc) (ret : Word) (s : State) :
    (s.enter e ret).regs = (s.setBankReg e.mode 14 ret).regs := by
  cases e <;> rfl

/-! ## The bits of a status word -/

@[simp] theorem flagBit_getElem (b : Bool) : (flagBit b)[0] = b := by cases b <;> rfl

/-- The bits of a status word whose flags were replaced: the flags, and below bit 28 the old word's. -/
theorem withFlags_getLsbD (psr : Word) (n z c v : Bool) (i : Nat) :
    (withFlags psr n z c v).getLsbD i =
      if i < 28 then psr.getLsbD i
      else if i = 28 then v else if i = 29 then c else if i = 30 then z
      else if i = 31 then n else false := by
  have bit (b : Bool) (j : Nat) : (flagBit b).getLsbD j = (decide (j = 0) && b) := by
    cases b <;> simp [flagBit]
  simp only [withFlags, BitVec.getLsbD_append, BitVec.getLsbD_extractLsb', bit]
  by_cases h : i < 28
  · simp [h]
  · by_cases h31 : i ≤ 31
    · obtain rfl | rfl | rfl | rfl : i = 28 ∨ i = 29 ∨ i = 30 ∨ i = 31 := by omega
      all_goals simp
    · simp [h, show i ≠ 28 by omega, show i ≠ 29 by omega, show i ≠ 30 by omega, show i ≠ 31 by omega,
        show ¬ (i - 28 < 1) by omega, show ¬ (i - 28 - 1 < 1) by omega,
        show ¬ (i - 28 - 1 - 1 < 1) by omega, show ¬ (i - 28 - 1 - 1 - 1 = 0) by omega]

/-- The same, of a bit at a number below 32. -/
theorem withFlags_getElem (psr : Word) (n z c v : Bool) (i : Nat) (hi : i < 32) :
    (withFlags psr n z c v)[i] =
      if i < 28 then psr[i] else if i = 28 then v else if i = 29 then c else if i = 30 then z
      else n := by
  have := withFlags_getLsbD psr n z c v i
  simp only [BitVec.getLsbD_eq_getElem hi] at this
  rw [this]
  split
  · rfl
  · split
    · rfl
    · split
      · rfl
      · split
        · rfl
        · rw [if_pos (by omega)]

@[simp] theorem withFlags_low (psr : Word) (n z c v : Bool) :
    (withFlags psr n z c v).extractLsb' 0 28 = psr.extractLsb' 0 28 := by
  apply BitVec.eq_of_getLsbD_eq
  intro i hi
  simp [withFlags_getLsbD, hi]

@[simp] theorem modeField_withFlags (psr : Word) (n z c v : Bool) :
    modeField (withFlags psr n z c v) = modeField psr := by
  apply BitVec.eq_of_getLsbD_eq
  intro i hi
  simp only [modeField, BitVec.getLsbD_extractLsb', withFlags_getLsbD, hi]
  simp [show i < 28 by omega]

@[simp] theorem legalMode_withFlags (psr : Word) (n z c v : Bool) :
    legalMode (withFlags psr n z c v) = legalMode psr := by simp [legalMode]

/-- The mode depends on the CPSR alone. -/
theorem State.mode_congr {s t : State} (h : t.cpsr = s.cpsr) : t.mode = s.mode := by
  simp [State.mode, h]

@[simp] theorem State.mode_setFlags (n z c v : Bool) (s : State) : (s.setFlags n z c v).mode = s.mode := by
  simp [State.mode]

@[simp] theorem State.mode_setAluFlags (a : Alu) (s : State) : (s.setAluFlags a).mode = s.mode := by
  simp [State.mode]

@[simp] theorem State.mode_setReg (i : Reg) (v : Word) (s : State) : (s.setReg i v).mode = s.mode := by
  simp [State.mode]

@[simp] theorem State.mode_advance (s : State) : s.advance.mode = s.mode := rfl

@[simp] theorem State.mode_branchTo (v : Word) (s : State) : (s.branchTo v).mode = s.mode := rfl

@[simp] theorem State.thumb_setFlags (n z c v : Bool) (s : State) :
    (s.setFlags n z c v).thumb = s.thumb := by
  simp [State.thumb, withFlags_getElem]

@[simp] theorem State.thumb_setAluFlags (a : Alu) (s : State) : (s.setAluFlags a).thumb = s.thumb := by
  simp [State.thumb, withFlags_getElem]

@[simp] theorem State.thumb_setReg (i : Reg) (v : Word) (s : State) : (s.setReg i v).thumb = s.thumb := by
  simp [State.thumb]

@[simp] theorem State.len_setAluFlags (a : Alu) (s : State) : (s.setAluFlags a).len = s.len := by
  simp [State.len]

@[simp] theorem State.len_setFlags (n z c v : Bool) (s : State) : (s.setFlags n z c v).len = s.len := by
  simp [State.len]

@[simp] theorem State.len_setReg (i : Reg) (v : Word) (s : State) : (s.setReg i v).len = s.len := by
  simp [State.len]

/-- The flags after a result's flags are written. -/
theorem State.flags_setAluFlags (a : Alu) (s : State) :
    FlagsAre (s.setAluFlags a) a.n a.z a.c a.v := by
  simp [FlagsAre, State.flagN, State.flagZ, State.flagC, State.flagV, withFlags_getElem]

/-! ## The banks -/

theorem phys_val (m : Mode) (i : Reg) (h : i ≠ 15) :
    (phys m i).val =
      if i.toNat < 8 then i.toNat
      else if i.toNat < 13 then (if m = .fiq then i.toNat + 7 else i.toNat)
      else i.toNat + m.bank := by
  revert h; revert i; cases m <;> decide

/-- Different registers of one mode are different entries. -/
theorem phys_inj (m : Mode) (i j : Reg) (hi : i ≠ 15) (hj : j ≠ 15) : phys m i = phys m j ↔ i = j := by
  revert hi hj; revert i j; cases m <;> decide

theorem State.setBankReg_regs (m : Mode) (i : Reg) (v : Word) (s : State) (h : i ≠ 15) :
    (s.setBankReg m i v).regs = s.regs.set (phys m i) v := by
  rw [State.setBankReg, if_neg h]

/-- A register of a bank after one was written: the one written, every other as before. -/
theorem State.setBankReg_getElem (m : Mode) (i : Reg) (v : Word) (s : State) (k : Fin 30) (h : i ≠ 15) :
    (s.setBankReg m i v).regs[k] = if k = phys m i then v else s.regs[k] := by
  rw [State.setBankReg_regs m i v s h]
  simp only [Fin.getElem_fin, Vector.getElem_set, Fin.val_inj, eq_comm]

/-- A register written and read again. -/
theorem State.reg_setReg (i j : Reg) (v : Word) (s : State) (hi : i ≠ 15) :
    (s.setReg i v).reg j = if j = i then v else s.reg j := by
  unfold State.reg
  by_cases hj : j = 15
  · subst hj; rw [if_pos rfl, if_pos rfl, if_neg (Ne.symm hi)]; simp [State.pcRead]
  · simp only [if_neg hj, State.mode_setReg]
    show (State.setBankReg s.mode i v s).regs[phys s.mode j] = _
    rw [State.setBankReg_getElem _ _ _ _ _ hi]
    simp only [phys_inj _ _ _ hj hi]

/-- A write of one register leaves every other entry alone. -/
theorem State.sameRegs_setReg (i : Reg) (v : Word) (s : State) :
    SameRegsBut [phys s.mode i] s (s.setReg i v) := by
  intro k hk
  by_cases hi : i = 15
  · simp [State.setReg, State.setBankReg, hi]
  · show (State.setBankReg s.mode i v s).regs[k] = _
    rw [State.setBankReg_getElem _ _ _ _ _ hi, if_neg (by simpa using hk)]

/-! ## Taking an exception -/

theorem exceptionCpsr_getLsbD (e : Exc) (psr : Word) (i : Nat) :
    (exceptionCpsr e psr).getLsbD i =
      if i < 5 then e.mode.bits.getLsbD i
      else if i = 5 then false
      else if i = 6 then (e == .fiq || psr.getLsbD 6)
      else if i = 7 then true
      else psr.getLsbD i := by
  simp only [exceptionCpsr, BitVec.getLsbD_append, BitVec.getLsbD_extractLsb']
  by_cases h5 : i < 5
  · simp [h5]
  · by_cases h : i = 5 ∨ i = 6 ∨ i = 7
    · rcases h with h | h | h <;> subst h <;> simp [flagBit_getElem]
    · have : 8 ≤ i := by omega
      simp [show ¬ i < 5 by omega, show i ≠ 5 by omega, show i ≠ 6 by omega, show i ≠ 7 by omega,
        show ¬ (i - 5 < 1) by omega, show ¬ (i - 5 - 1 < 1) by omega, show ¬ (i - 5 - 1 - 1 < 1) by omega,
        show 8 + (i - 5 - 1 - 1 - 1) = i by omega]
      intro _
      by_cases hi : i < 32
      · omega
      · simp [BitVec.getLsbD_of_ge psr i (by omega)] at *

theorem exceptionCpsr_getElem (e : Exc) (psr : Word) (i : Nat) (hi : i < 32) :
    (exceptionCpsr e psr)[i] =
      if i < 5 then e.mode.bits.getLsbD i
      else if i = 5 then false
      else if i = 6 then (e == .fiq || psr[6])
      else if i = 7 then true
      else psr[i] := by
  have := exceptionCpsr_getLsbD e psr i
  simpa only [BitVec.getLsbD_eq_getElem hi, BitVec.getLsbD_eq_getElem (show 6 < 32 by omega)] using this

/-- Taking an exception, once for all of them (R503). -/
theorem State.entered (e : Exc) (ret : Word) (s : State) : Entered e ret s (s.enter e ret) := by
  refine ⟨?_, ?_, ?_, ?_, ?_, ?_, ?_, ?_, ?_, ?_, ?_⟩
  · rw [State.enter_regs, State.setBankReg_getElem _ _ _ _ _ (by decide), if_pos rfl]
  · cases e <;> simp [State.enter, State.spsrOf, State.setSpsrOf, Exc.mode]
  · apply BitVec.eq_of_getLsbD_eq
    intro i hi
    simp [modeField, exceptionCpsr_getLsbD, hi]
  · simp [State.thumb, exceptionCpsr_getElem]
  · simp [exceptionCpsr_getElem]
  · simp [exceptionCpsr_getElem]
  · apply BitVec.eq_of_getLsbD_eq
    intro i hi
    rw [BitVec.getLsbD_extractLsb', BitVec.getLsbD_extractLsb', State.enter_cpsr, exceptionCpsr_getLsbD]
    simp [hi, show ¬ (8 + i < 5) by omega, show 8 + i ≠ 5 by omega, show 8 + i ≠ 6 by omega,
      show 8 + i ≠ 7 by omega]
  · simp [Cp15.vectorBase, Cp15.highVectors]
  · intro k hk
    rw [State.enter_regs, State.setBankReg_getElem _ _ _ _ _ (by decide), if_neg (by simpa using hk)]
  · intro m hm
    cases e <;> cases m <;> simp_all [State.enter, State.spsrOf, State.setSpsrOf, Exc.mode]
  · rfl

/-- What an exception entry does not touch. -/
theorem State.enter_outside (e : Exc) (ret : Word) (s : State) : SameOutside s (s.enter e ret) := by
  constructor <;> simp [State.byteAt, State.settled]

end Sys2Proof.Machine
end

