-- ==== Sys2Proof/Laws/Access.lean ====
section
/-! SUPPORT. What an access does on a quiet bus: the write buffer, the cache and the TLB hide nothing from
memory as it stands. One lemma for each operation of the memory system. -/

namespace Sys2Proof.Machine

/-! ## The bus -/

/-- The list of answers a number of transfers later. -/
theorem MemSys.Calm.drop {ms : MemSys} (h : ms.Calm) (n : Nat) (m : Memory) (w : List BufferedWrite)
    (cache : Vector (Vector CacheLine 64) 4) (tlb : Vector TlbEntry 64) (v : BitVec 6)
    (bus : List BusTransfer) (d : Nat) :
    MemSys.Calm { ms with
      mem := m, wbuf := w, cache := cache, tlb := tlb, tlbVictim := v, answers := ms.answers.drop n,
      bus := bus, draws := d } :=
  ⟨fun a ha => h.okay a (List.mem_of_mem_drop ha), fun a ha => h.alone a (List.mem_of_mem_drop ha), h.plain⟩

theorem MemSys.Calm.slaveAt {ms : MemSys} (h : ms.Calm) (pa : Word) : ms.slaveAt pa = none := by
  simp [MemSys.slaveAt, h.plain]

theorem answersTaken_mem {l : List BusAnswer} {a : BusAnswer} (h : a ∈ answersTaken l) : a ∈ l := by
  induction l with
  | nil => exact h
  | cons x rest ih =>
    rcases List.mem_cons.1 h with rfl | h'
    · exact List.mem_cons_self
    · split at h'
      · exact List.mem_cons_of_mem _ (ih h')
      · exact absurd h' (by simp)

/-- A NONSEQ transfer is driven as it is, whatever was driven before it (R159). -/
theorem BusTransfer.drivenAfter_nonseq (bus : List BusTransfer) {t : BusTransfer} (h : t.trans = .nonseq) :
    t.drivenAfter bus = t := by
  unfold BusTransfer.drivenAfter
  split
  · rfl
  · rw [← h]

/-- What driving a transfer does when no other master writes meanwhile (R162): the answers it takes are gone,
the last of them is the one it gets, and nothing but the two lists of the bus changes. -/
theorem MemSys.drive_alone (t : BusTransfer) {l : List BusAnswer} (b : Bool) {ms : MemSys}
    (h : ∀ a ∈ answersTaken l, a.writes = []) :
    (ms.drive t l b).1.error = (answersTaken l).getLast?.any BusAnswer.error ∧
      ∃ bus, (ms.drive t l b).2 = { ms with answers := l.drop (answersTaken l).length, bus := bus } := by
  induction l generalizing b ms with
  | nil => exact ⟨rfl, _, rfl⟩
  | cons a rest ih =>
    have hw := h a List.mem_cons_self
    have hm : (if (t.lock && b) = true then ms.mem else ms.mem.setBytes a.writes) = ms.mem := by
      rw [hw]; exact ite_self _
    unfold MemSys.drive
    simp only [hm]
    cases hr : a.repeats with
    | true =>
      have hk : answersTaken (a :: rest) = a :: answersTaken rest := by simp [answersTaken, hr]
      rw [hk] at h ⊢
      obtain ⟨e, bus, q⟩ := ih (ms := { ms with answers := rest, bus := ms.bus ++ [t.drivenAfter ms.bus] }) true
        fun x hx => h x (List.mem_cons_of_mem _ hx)
      refine ⟨?_, bus, q⟩
      refine e.trans ?_
      cases answersTaken rest with
      | nil => simp [BusAnswer.error, BusAnswer.repeats] at hr ⊢; rcases hr with hr | hr <;> rw [hr] <;> decide
      | cons x xs => rw [List.getLast?_cons_cons]
    | false =>
      have hk : answersTaken (a :: rest) = [a] := by simp [answersTaken, hr]
      rw [hk]
      exact ⟨rfl, _, rfl⟩

/-- A transfer of a calm bus: no ERROR, and nothing but the two lists of the bus changes. -/
theorem MemSys.Calm.transfer {ms : MemSys} (h : ms.Calm) (t : BusTransfer) :
    (ms.transfer t).1.error = false ∧
      ∃ n bus, (ms.transfer t).2 = { ms with answers := ms.answers.drop n, bus := bus } := by
  obtain ⟨e, bus, q⟩ := MemSys.drive_alone t t.write.isSome (ms := ms) (l := ms.answers)
    fun a ha => h.alone a (answersTaken_mem ha)
  unfold MemSys.transfer
  simp only [q, MemSys.slaveAt, h.plain]
  refine ⟨e.trans ?_, _, bus, rfl⟩
  cases hl : (answersTaken ms.answers).getLast? with
  | none => rfl
  | some a => exact h.okay a (answersTaken_mem (List.mem_of_getLast? hl))

theorem MemSys.Calm.driven {ms : MemSys} (h : ms.Calm) (big : Bool) (pa : Word) (a : BusAnswer) :
    ms.driven big pa a = ms.mem.word big pa := by simp [MemSys.driven, h.slaveAt]

theorem MemSys.Calm.taken {ms : MemSys} (h : ms.Calm) (big : Bool) (n : Size) (pa v : Word) :
    ms.taken big n pa v = { ms with mem := ms.mem.store big n pa v } := by
  simp [MemSys.taken, h.slaveAt]

/-! ## The write buffer -/

/-- Memory after a list of writes in order. -/
def storeAll (big : Bool) : List BufferedWrite → Memory → Memory
  | [], m => m
  | e :: rest, m => storeAll big rest (m.store big e.size e.pa e.data)

theorem storeAll_append (big : Bool) (l : List BufferedWrite) (e : BufferedWrite) (m : Memory) :
    storeAll big (l ++ [e]) m = (storeAll big l m).store big e.size e.pa e.data := by
  induction l generalizing m with
  | nil => rfl
  | cons x rest ih => exact ih _

theorem storeAll_wf (big : Bool) (l : List BufferedWrite) {m : Memory} (h : m.wf = true) :
    (storeAll big l m).wf = true := by
  induction l generalizing m with
  | nil => exact h
  | cons x rest ih => exact ih (Memory.wf_store h)

theorem MemSys.perform_okay {big : Bool} {e : BufferedWrite} {ms : MemSys} (h : ms.Calm) :
    ∃ n bus, ms.perform big e =
      { ms with
        mem := ms.mem.store big e.size e.pa e.data, answers := ms.answers.drop n, bus := bus } := by
  obtain ⟨o, n, bus, q⟩ :=
    h.transfer ⟨e.pa, e.size, some (replicated e.size e.data), some e.prot, false, e.burst, .nonseq⟩
  have c := h.drop n ms.mem ms.wbuf ms.cache ms.tlb ms.tlbVictim bus ms.draws
  refine ⟨n, bus, ?_⟩
  unfold MemSys.perform
  simp only [o, q, Bool.false_eq_true, if_false]
  exact c.taken big e.size e.pa e.data

theorem MemSys.performAll_okay {big : Bool} (l : List BufferedWrite) {ms : MemSys} (h : ms.Calm) :
    ∃ n bus, MemSys.performAll big l ms =
      { ms with mem := storeAll big l ms.mem, answers := ms.answers.drop n, bus := bus } := by
  induction l generalizing ms with
  | nil => exact ⟨0, ms.bus, rfl⟩
  | cons e rest ih =>
    obtain ⟨n, bus, q⟩ := MemSys.perform_okay (big := big) (e := e) h
    obtain ⟨m, bus', q'⟩ := ih (h.drop n (ms.mem.store big e.size e.pa e.data) ms.wbuf ms.cache ms.tlb
      ms.tlbVictim bus ms.draws)
    refine ⟨n + m, bus', ?_⟩
    rw [MemSys.performAll, q, q']
    simp [storeAll, List.drop_drop]

/-- Draining the write buffer: its writes reach memory in order (R152, D8). -/
theorem MemSys.drain_okay {big : Bool} {ms : MemSys} (h : ms.Calm) :
    ∃ n bus, ms.drain big =
      { ms with
        wbuf := [], mem := storeAll big ms.wbuf ms.mem, answers := ms.answers.drop n, bus := bus } :=
  MemSys.performAll_okay (ms := { ms with wbuf := [] }) _ ⟨h.okay, h.alone, h.plain⟩

theorem MemSys.drain_mem {big : Bool} {ms : MemSys} (h : ms.Calm) :
    (ms.drain big).mem = storeAll big ms.wbuf ms.mem := by
  obtain ⟨n, bus, e⟩ := MemSys.drain_okay (big := big) h
  rw [e]

theorem MemSys.drain_wbuf {big : Bool} {ms : MemSys} (h : ms.Calm) : (ms.drain big).wbuf = [] := by
  obtain ⟨n, bus, e⟩ := MemSys.drain_okay (big := big) h
  rw [e]

/-- What an operation that changes no byte of memory keeps. -/
structure MemSys.Kept (big : Bool) (ms ms' : MemSys) : Prop where
  canonical : ms.mem.wf = true → ms'.mem.wf = true
  calm : ms'.Calm
  settled : (ms'.drain big).mem = (ms.drain big).mem
  cacheVictim : ms'.cacheVictim = ms.cacheVictim
  cacheBase : ms'.cacheBase = ms.cacheBase
  cacheStep : ms'.cacheStep = ms.cacheStep
  c15c : ms'.c15c = ms.c15c
  tlbBase : ms'.tlbBase = ms.tlbBase
  tlbPreserve : ms'.tlbPreserve = ms.tlbPreserve
  ram2Pointer : ms'.ram2Pointer = ms.ram2Pointer
  c15m : ms'.c15m = ms.c15m

theorem MemSys.Kept.refl {big : Bool} {ms : MemSys} (h : ms.Calm) :
    MemSys.Kept big ms ms := ⟨id, h, rfl, rfl, rfl, rfl, rfl, rfl, rfl, rfl, rfl⟩

theorem MemSys.Kept.trans {big : Bool} {a b c : MemSys} (x : MemSys.Kept big a b)
    (y : MemSys.Kept big b c) : MemSys.Kept big a c :=
  ⟨y.canonical ∘ x.canonical, y.calm, y.settled.trans x.settled, y.cacheVictim.trans x.cacheVictim,
    y.cacheBase.trans x.cacheBase, y.cacheStep.trans x.cacheStep, y.c15c.trans x.c15c,
    y.tlbBase.trans x.tlbBase, y.tlbPreserve.trans x.tlbPreserve, y.ram2Pointer.trans x.ram2Pointer,
    y.c15m.trans x.c15m⟩

/-- A change of cache, TLB, counter and the lists of the bus alone keeps memory. -/
theorem MemSys.kept_of_eq {big : Bool} {ms : MemSys} (h : ms.Calm)
    (cache : Vector (Vector CacheLine 64) 4) (tlb : Vector TlbEntry 64) (v : BitVec 6) (n : Nat)
    (bus : List BusTransfer) (d : Nat) :
    MemSys.Kept big ms { ms with
      cache := cache, tlb := tlb, tlbVictim := v, answers := ms.answers.drop n, bus := bus, draws := d } := by
  have c := h.drop n ms.mem ms.wbuf cache tlb v bus d
  refine ⟨id, c, ?_, rfl, rfl, rfl, rfl, rfl, rfl, rfl, rfl⟩
  rw [MemSys.drain_mem h, MemSys.drain_mem c]

/-- The mark that the Thumb prefetch buffer is stale keeps memory. -/
theorem MemSys.kept_stale {big : Bool} {ms : MemSys} (h : ms.Calm) (b : Bool) :
    MemSys.Kept big ms { ms with thumbStale := b } := by
  have c : MemSys.Calm { ms with thumbStale := b } := ⟨h.okay, h.alone, h.plain⟩
  refine ⟨id, c, ?_, rfl, rfl, rfl, rfl, rfl, rfl, rfl, rfl⟩
  rw [MemSys.drain_mem h, MemSys.drain_mem c]

/-- Draining keeps memory as it stands. -/
theorem MemSys.kept_drain {big : Bool} {ms : MemSys} (h : ms.Calm) :
    MemSys.Kept big ms (ms.drain big) := by
  obtain ⟨n, bus, e⟩ := MemSys.drain_okay (big := big) h
  have c := h.drop n (storeAll big ms.wbuf ms.mem) [] ms.cache ms.tlb ms.tlbVictim bus ms.draws
  rw [e]
  refine ⟨storeAll_wf big _, c, ?_, rfl, rfl, rfl, rfl, rfl, rfl, rfl, rfl⟩
  rw [MemSys.drain_mem c, e]
  rfl

/-- A transfer that draws no ERROR keeps memory. -/
theorem MemSys.kept_transfer {big : Bool} {ms : MemSys} (h : ms.Calm) (t : BusTransfer) :
    MemSys.Kept big ms (ms.transfer t).2 := by
  obtain ⟨-, n, bus, e⟩ := h.transfer t
  rw [e]
  exact MemSys.kept_of_eq h ms.cache ms.tlb ms.tlbVictim n bus ms.draws

/-- With nothing buffered, memory as it stands is memory. -/
theorem MemSys.settled_of_empty {big : Bool} {ms : MemSys} (h : ms.Calm)
    (e : ms.wbuf = []) : (ms.drain big).mem = ms.mem := by
  rw [MemSys.drain_mem h, e]; rfl

theorem MemSys.wf_settled {big : Bool} {ms : MemSys} (h : ms.Calm)
    (w : ms.mem.wf = true) : (ms.drain big).mem.wf = true := by
  rw [MemSys.drain_mem h]; exact storeAll_wf big _ w

/-! ## Steps 1 to 3 of the access algorithm -/

/-- The words a table walk reads on a calm bus: memory's (R139). -/
theorem MemSys.Calm.walkRead {ms : MemSys} (h : ms.Calm) (big : Bool) (pa : Word) :
    ∃ n bus, ms.walkRead big pa =
      (ms.mem.word big pa, { ms with answers := ms.answers.drop n, bus := bus }) := by
  obtain ⟨-, n, bus, e⟩ := h.transfer ⟨pa, .word, none, none, false, .single, .nonseq⟩
  have c := h.drop n ms.mem ms.wbuf ms.cache ms.tlb ms.tlbVictim bus ms.draws
  refine ⟨n, bus, ?_⟩
  unfold MemSys.walkRead
  simp only [e, c.driven]

/-- A table walk on a calm bus changes the lists of the bus alone. -/
theorem MemSys.Calm.walk {ms : MemSys} (h : ms.Calm) (big : Bool) (ttb : BitVec 18) (mva : Word) :
    ∃ n bus, (ms.walk big ttb mva).2 = { ms with answers := ms.answers.drop n, bus := bus } := by
  obtain ⟨n, bus, e⟩ := h.walkRead big (l1Address ttb mva)
  have c := (h.drop n ms.mem ms.wbuf ms.cache ms.tlb ms.tlbVictim bus ms.draws).walkRead big
  have two : ∀ l2, ∃ m bus',
      (MemSys.walkRead big l2 { ms with answers := ms.answers.drop n, bus := bus }).2 =
        { ms with answers := ms.answers.drop m, bus := bus' } := fun l2 => by
    obtain ⟨m, bus', q⟩ := c l2
    exact ⟨n + m, bus', by rw [q]; simp [List.drop_drop]⟩
  unfold MemSys.walk
  rw [e]
  simp only
  split
  · exact ⟨n, bus, rfl⟩
  · exact two _
  · exact ⟨n, bus, rfl⟩
  · exact two _

/-- An access let through changes the TLB and the lists of the bus alone (R114). -/
theorem MemSys.resolve_ok {big : Bool} {cp : Cp15} {k : Access} {n : Size} {priv : Bool} {va : Word}
    {ms : MemSys} {r : Route} (calm : ms.Calm) (h : (ms.resolve big cp k n priv va).1 = .ok r) :
    ∃ tlb v j bus, ms.resolve big cp k n priv va =
      (.ok r, { ms with tlb := tlb, tlbVictim := v, answers := ms.answers.drop j, bus := bus }) := by
  revert h
  unfold MemSys.resolve MemSys.route
  split
  · intro h; exact absurd h (by simp)
  · split
    · unfold MemSys.translate
      cases ms.tlbLookup (accessMva cp n va) with
      | some e =>
        simp only
        cases e.check cp k priv with
        | none => intro h; exact ⟨ms.tlb, ms.tlbVictim, 0, ms.bus, by simpa using h⟩
        | some c => intro h; exact absurd h (by simp)
      | none =>
        simp only
        obtain ⟨j, bus, e⟩ := calm.walk big cp.ttb (accessMva cp n va)
        rcases hw : ms.walk big cp.ttb (accessMva cp n va) with ⟨_ | d | _ | e', ms'⟩
        · intro h; exact absurd h (by simp)
        · intro h; exact absurd h (by simp)
        · intro h; exact absurd h (by simp)
        · rw [hw] at e
          simp only at e
          subst e
          simp only
          cases e'.check cp k priv with
          | none =>
            intro h
            exact ⟨(ms.tlbFill e').tlb, ms.nextTlbVictim, j, bus, by simpa [MemSys.tlbFill, MemSys.nextTlbVictim] using h⟩
          | some c => intro h; exact absurd h (by simp)
    · intro h; exact ⟨ms.tlb, ms.tlbVictim, 0, ms.bus, by simpa using h⟩

theorem TlbSize.five_le_bits (n : TlbSize) : 10 ≤ n.bits ∧ n.bits ≤ 20 := by cases n <;> decide

/-- A mapping leaves the ten low bits of an address as they are (R117, R121 to R123). -/
theorem TlbEntry.physical_low (e : TlbEntry) (a : Word) (i : Nat) (hi : i < 10) :
    (e.physical a).getLsbD i = a.getLsbD i := by
  unfold TlbEntry.physical TlbSize.page TlbSize.offset
  cases e.baseSize <;> simp only [TlbSize.bits] <;>
    (interval_cases i <;> simp)

/-- Where an access goes, the ten low bits are those of the address. -/
theorem MemSys.resolve_low {big : Bool} {cp : Cp15} {k : Access} {n : Size} {priv : Bool} {va : Word}
    {ms : MemSys} {r : Route} (h : (ms.resolve big cp k n priv va).1 = .ok r) (i : Nat) (hi : i < 10) :
    r.pa.getLsbD i = (accessMva cp n va).getLsbD i := by
  revert h
  unfold MemSys.resolve MemSys.route
  split
  · intro h; exact absurd h (by simp)
  · split
    · rcases ms.translate big cp (accessMva cp n va) with ⟨e | i | s, ms'⟩
      · simp only
        cases e.check cp k priv with
        | none =>
          intro h
          simp only [Got.ok.injEq] at h
          subst h
          exact TlbEntry.physical_low e _ i hi
        | some c => intro h; exact absurd h (by simp)
      · intro h; exact absurd h (by simp)
      · intro h; exact absurd h (by simp)
    · intro h
      simp only [Got.ok.injEq] at h
      subst h
      rfl

/-! ## Reads -/

theorem Memory.word_congr {big : Bool} {m : Memory} {a b : Word} (h : a.toNat / 4 = b.toNat / 4) :
    m.word big a = m.word big b := by
  simp [Memory.word, laneAddr, h]

theorem MemSys.fillWords_okay {big : Bool} {prot : BitVec 4} {base : Word} (l : List Nat) {ms : MemSys}
    (h : ms.Calm) :
    ∃ n bus, MemSys.fillWords big prot base l ms =
      (l.map fun i => ms.mem.word big (base + BitVec.ofNat 32 (4 * i)),
        { ms with answers := ms.answers.drop n, bus := bus }) := by
  induction l generalizing ms with
  | nil => exact ⟨0, ms.bus, rfl⟩
  | cons i rest ih =>
    obtain ⟨o, n, bus, q⟩ :=
      h.transfer ⟨base + BitVec.ofNat 32 (4 * i), .word, none, some prot, false, .incr8,
        if i = 0 then .nonseq else .seq⟩
    have c := h.drop n ms.mem ms.wbuf ms.cache ms.tlb ms.tlbVictim bus ms.draws
    obtain ⟨m, bus', e⟩ := ih c
    refine ⟨n + m, bus', ?_⟩
    rw [MemSys.fillWords]
    simp only [o, q, Bool.false_eq_true, if_false]
    rw [c.driven, e]
    simp [List.drop_drop]

theorem line_word {pa mva : Word} (h : ∀ i < 10, pa.getLsbD i = mva.getLsbD i) :
    ((pa &&& 0xffffffe0) + BitVec.ofNat 32 (4 * (wordOf mva).val)).toNat / 4 = pa.toNat / 4 := by
  have low : mva.extractLsb' 2 3 = pa.extractLsb' 2 3 := by
    apply BitVec.eq_of_getLsbD_eq
    intro i hi
    simp only [BitVec.getLsbD_extractLsb', hi, decide_true, Bool.true_and]
    exact (h _ (by omega)).symm
  have e : (wordOf mva).val = pa.toNat / 4 % 8 := by
    show (mva.extractLsb' 2 3).toNat = _
    rw [low]; simp [BitVec.extractLsb'_toNat, Nat.shiftRight_eq_div_pow]
  have hb : (pa &&& 0xffffffe0#32).toNat = pa.toNat / 32 * 32 := by
    have : pa &&& 0xffffffe0#32 = (pa >>> 5) <<< 5 := by
      apply BitVec.eq_of_getLsbD_eq
      intro i hi
      interval_cases i <;> simp
    rw [this]
    simp only [BitVec.toNat_shiftLeft, BitVec.toNat_ushiftRight, Nat.shiftRight_eq_div_pow,
      Nat.shiftLeft_eq]
    have := pa.isLt
    omega
  have := pa.isLt
  rw [e, BitVec.toNat_add, show (pa &&& 0xffffffe0).toNat = _ from hb, BitVec.toNat_ofNat]
  omega

/-- A line fill on a calm bus: the word is memory's, and memory is kept (R142, D8). -/
theorem MemSys.lineFill_okay {big : Bool} {prot : BitVec 4} {mva pa : Word} {ms : MemSys}
    (h : ms.Calm) (low : ∀ i < 10, pa.getLsbD i = mva.getLsbD i) :
    (ms.lineFill big prot mva pa).1 = ((ms.drain big).mem).word big pa ∧
      MemSys.Kept big ms (ms.lineFill big prot mva pa).2 := by
  have hd := (MemSys.kept_drain (big := big) h)
  obtain ⟨n, bus, e⟩ := MemSys.fillWords_okay (big := big) (prot := prot) (base := pa &&& 0xffffffe0)
    (List.range 8) hd.calm
  unfold MemSys.lineFill
  rw [e]
  constructor
  · have w8 : (wordOf mva).val < 8 := (wordOf mva).isLt
    simp only [Fin.getElem_fin, Vector.getElem_ofFn, List.getD_eq_getElem?_getD, List.getElem?_map]
    rw [List.getElem?_range w8]
    exact Memory.word_congr (line_word low)
  · exact hd.trans (MemSys.kept_of_eq hd.calm _ _ _ n bus _)

/-- A read after translation on a calm bus (R100 step 4). -/
theorem MemSys.readRoute_okay {big : Bool} {cp : Cp15} {k : Access} {n : Size} {mva : Word} {r : Route}
    {ms : MemSys} (h : ms.Calm) (low : ∀ i < 10, r.pa.getLsbD i = mva.getLsbD i) :
    (ms.readRoute big cp k n mva r).1 =
        .ok (match if cp.cacheOn && r.cachable && k != .swapRead then ms.cacheFind mva else none with
          | some i => (ms.cache[segmentOf mva][i]).words[wordOf mva]
          | none => ((ms.drain big).mem).word big r.pa) ∧
      MemSys.Kept big ms (ms.readRoute big cp k n mva r).2 := by
  unfold MemSys.readRoute
  have hd := (MemSys.kept_drain (big := big) h)
  split
  · cases ms.cacheFind mva with
    | some i => exact ⟨rfl, MemSys.Kept.refl h⟩
    | none =>
      have l := MemSys.lineFill_okay (big := big) (prot := r.prot k) h low
      generalize ms.lineFill big (r.prot k) mva r.pa = x at l ⊢
      exact ⟨congrArg Got.ok l.1, l.2⟩
  · obtain ⟨o, m, bus, q⟩ := hd.calm.transfer ⟨r.pa, n, none, some (r.prot k), k == .swapRead, k.burst, k.trans⟩
    have kt := MemSys.kept_of_eq (big := big) hd.calm (ms.drain big).cache (ms.drain big).tlb
      (ms.drain big).tlbVictim m bus (ms.drain big).draws
    unfold MemSys.externalRead
    simp only [o, q, Bool.false_eq_true, if_false]
    exact ⟨congrArg Got.ok (kt.calm.driven big r.pa _), hd.trans kt⟩

/-! ## Writes -/

theorem MemSys.updateLine_kept {big b : Bool} {n : Size} {mva v : Word} {ms : MemSys}
    (h : ms.Calm) : MemSys.Kept big ms (ms.updateLine b n mva v) := by
  unfold MemSys.updateLine
  split
  · exact MemSys.Kept.refl h
  · exact MemSys.kept_of_eq h _ ms.tlb ms.tlbVictim 0 ms.bus ms.draws

/-- What a write of one datum leaves of memory as it stands. -/
structure MemSys.Wrote (big : Bool) (n : Size) (pa v : Word) (ms ms' : MemSys) : Prop where
  canonical : ms.mem.wf = true → ms'.mem.wf = true
  calm : ms'.Calm
  settled : (ms'.drain big).mem = (ms.drain big).mem.store big n pa v
  cacheVictim : ms'.cacheVictim = ms.cacheVictim
  cacheBase : ms'.cacheBase = ms.cacheBase
  cacheStep : ms'.cacheStep = ms.cacheStep
  c15c : ms'.c15c = ms.c15c
  tlbBase : ms'.tlbBase = ms.tlbBase
  tlbPreserve : ms'.tlbPreserve = ms.tlbPreserve
  ram2Pointer : ms'.ram2Pointer = ms.ram2Pointer
  c15m : ms'.c15m = ms.c15m

theorem MemSys.Kept.wrote {big : Bool} {n : Size} {pa v : Word} {a b c : MemSys} (x : MemSys.Kept big a b)
    (y : MemSys.Wrote big n pa v b c) : MemSys.Wrote big n pa v a c :=
  ⟨y.canonical ∘ x.canonical, y.calm, by rw [y.settled, x.settled], y.cacheVictim.trans x.cacheVictim,
    y.cacheBase.trans x.cacheBase, y.cacheStep.trans x.cacheStep, y.c15c.trans x.c15c,
    y.tlbBase.trans x.tlbBase, y.tlbPreserve.trans x.tlbPreserve, y.ram2Pointer.trans x.ram2Pointer,
    y.c15m.trans x.c15m⟩

/-- A write put into the buffer (R152). -/
theorem MemSys.enqueue_okay {big : Bool} {e : BufferedWrite} {ms : MemSys} (h : ms.Calm) :
    MemSys.Wrote big e.size e.pa e.data ms (ms.enqueue big e) := by
  unfold MemSys.enqueue
  split
  · have c : MemSys.Calm { ms with wbuf := ms.wbuf ++ [e] } := ⟨h.okay, h.alone, h.plain⟩
    refine ⟨id, c, ?_, rfl, rfl, rfl, rfl, rfl, rfl, rfl, rfl⟩
    rw [MemSys.drain_mem h, MemSys.drain_mem c]
    exact storeAll_append big _ _ _
  · unfold MemSys.drainOne
    split
    · rename_i c _ e0
      exact absurd (by simp [e0]) c
    · rename_i c _ x rest e0
      obtain ⟨n, bus, q⟩ := MemSys.perform_okay (big := big) (e := x) (ms := { ms with wbuf := rest })
        ⟨h.okay, h.alone, h.plain⟩
      have c1 := h.drop n (ms.mem.store big x.size x.pa x.data) (rest ++ [e]) ms.cache ms.tlb ms.tlbVictim
        bus ms.draws
      rw [q]
      refine ⟨fun w => Memory.wf_store w, c1, ?_, rfl, rfl, rfl, rfl, rfl, rfl, rfl, rfl⟩
      rw [MemSys.drain_mem h, MemSys.drain_mem c1, e0]
      exact storeAll_append big _ _ _

/-- An unbuffered write (R153). -/
theorem MemSys.externalWrite_okay {big : Bool} {k : Access} {n : Size} {r : Route} {mva v : Word}
    {ms : MemSys} (h : ms.Calm) :
    (ms.externalWrite big k n r mva v).1 = .ok () ∧
      MemSys.Wrote big n r.pa v ms (ms.externalWrite big k n r mva v).2 := by
  unfold MemSys.externalWrite
  have hd := (MemSys.kept_drain (big := big) h)
  obtain ⟨o, m, bus, q⟩ :=
    hd.calm.transfer ⟨r.pa, n, some (replicated n v), some (r.prot k), k == .swapWrite, k.burst, k.trans⟩
  have c := hd.calm.drop m (ms.drain big).mem (ms.drain big).wbuf (ms.drain big).cache (ms.drain big).tlb
    (ms.drain big).tlbVictim bus (ms.drain big).draws
  have c1 := hd.calm.drop m ((ms.drain big).mem.store big n r.pa v) (ms.drain big).wbuf (ms.drain big).cache
    (ms.drain big).tlb (ms.drain big).tlbVictim bus (ms.drain big).draws
  simp only [o, q, Bool.false_eq_true, if_false]
  refine ⟨trivial, hd.wrote ?_⟩
  rw [c.taken]
  refine ⟨fun w => Memory.wf_store w, c1, ?_, rfl, rfl, rfl, rfl, rfl, rfl, rfl, rfl⟩
  have e := MemSys.drain_wbuf (big := big) h
  rw [MemSys.settled_of_empty hd.calm e, MemSys.settled_of_empty c1 e]

/-- A write after translation (R100 step 5). -/
theorem MemSys.writeRoute_okay {big : Bool} {cp : Cp15} {k : Access} {n : Size} {mva v : Word} {r : Route}
    {ms : MemSys} (h : ms.Calm) :
    (ms.writeRoute big cp k n mva v r).1 = .ok () ∧
      MemSys.Wrote big n r.pa v ms (ms.writeRoute big cp k n mva v r).2 := by
  unfold MemSys.writeRoute
  have hl : MemSys.Kept big ms (if cp.cacheOn then ms.updateLine cp.bigEndian n mva v else ms) := by
    split
    · exact MemSys.updateLine_kept h
    · exact MemSys.Kept.refl h
  have hu := hl.trans (MemSys.kept_stale hl.calm true)
  simp only
  split
  · exact ⟨rfl, hu.wrote (MemSys.enqueue_okay (e := ⟨r.pa, n, v, r.prot k, .single⟩) hu.calm)⟩
  · have w := MemSys.externalWrite_okay (big := big) (k := k) (n := n) (r := r) (mva := mva) (v := v) hu.calm
    exact ⟨w.1, hu.wrote w.2⟩

/-- The bytes of memory after a write of one datum. -/
theorem Memory.get_store {m : Memory} {big : Bool} {n : Size} {pa v : Word} {x : Nat} (h : m.wf = true) :
    (m.store big n pa v).get x = (storedByte big n pa v x).getD (m.get x) := by
  cases n with
  | byte => simp only [Memory.store, storedByte, Memory.get_set h]; split <;> rfl
  | half => simp only [Memory.store, storedByte, Memory.get_setHalf h]; split <;> rfl
  | word => simp only [Memory.store, storedByte, Memory.get_setWord h]; split <;> rfl

/-! ## The core's loads and stores -/

theorem State.compare_quiet {s : State} (h : s.pins.dbgen = false) (y : BusCycle) :
    s.compare y = (false, s) := by simp [State.compare, h]

theorem State.watch_quiet {s : State} (h : s.pins.dbgen = false) (y : BusCycle) :
    s.watch y = (false, s) := by simp [State.watch, State.compare_quiet h]

theorem State.debugSpeed_quiet {s : State} (h : s.dbg.ack = false) : s.debugSpeed = false := by
  simp [State.debugSpeed, h]

/-- A load that reaches memory on a quiet machine: its datum, and memory kept (R100, R301). -/
theorem State.load_quiet {s : State} {k : Access} {n : Size} {priv : Bool} {va : Word} {r : Route}
    (q : s.Quiet) (h : s.Reaches k n priv va r) :
    ∃ ms, s.load k n priv va = (.ok (s.datum k n va r), { s with memsys := ms }) ∧
      MemSys.Kept s.platform.bigEndian s.memsys ms := by
  obtain ⟨tlb, v, j, bus, e⟩ := MemSys.resolve_ok q.calm h
  have low := MemSys.resolve_low h
  have kt := MemSys.kept_of_eq (big := s.platform.bigEndian) q.calm s.memsys.cache tlb v j bus s.memsys.draws
  have rr := MemSys.readRoute_okay (big := s.platform.bigEndian) (cp := s.cp15) (k := k) (n := n) kt.calm low
  refine ⟨_, ?_, kt.trans rr.2⟩
  unfold State.load
  rw [State.debugSpeed_quiet q.ack]
  simp only [Bool.false_eq_true, if_false, MemSys.read, e, rr.1]
  rw [State.watch_quiet (by exact q.dbgen)]
  simp only [Bool.false_eq_true, if_false, Prod.mk.injEq, and_true, Got.ok.injEq]
  unfold State.datum State.wordRead State.settled
  rw [kt.settled]
  rfl

/-- A store that reaches memory on a quiet machine (R100, R302). -/
theorem State.store_quiet {s : State} {k : Access} {n : Size} {priv : Bool} {va v : Word} {r : Route}
    (q : s.Quiet) (h : s.Reaches k n priv va r) :
    ∃ ms, s.store k n priv va v = (.ok (), { s with memsys := ms }) ∧
      MemSys.Wrote s.platform.bigEndian n r.pa v s.memsys ms := by
  obtain ⟨tlb, w, j, bus, e⟩ := MemSys.resolve_ok q.calm h
  have kt := MemSys.kept_of_eq (big := s.platform.bigEndian) q.calm s.memsys.cache tlb w j bus s.memsys.draws
  have ww := MemSys.writeRoute_okay (big := s.platform.bigEndian) (cp := s.cp15) (k := k) (n := n)
    (mva := accessMva s.cp15 n va) (v := v) (r := r) kt.calm
  refine ⟨_, ?_, kt.wrote ww.2⟩
  unfold State.store
  rw [State.debugSpeed_quiet q.ack]
  simp only [Bool.false_eq_true, if_false, MemSys.write, e, ww.1]
  rw [State.watch_quiet q.dbgen]
  rfl

/-- What stays quiet after the memory system kept memory. -/
theorem State.Quiet.kept {s : State} {ms : MemSys} (q : s.Quiet)
    (h : MemSys.Kept s.platform.bigEndian s.memsys ms) : State.Quiet { s with memsys := ms } :=
  ⟨h.canonical q.canonical, h.calm, q.dbgen, q.ack⟩

theorem State.Quiet.wrote {s : State} {ms : MemSys} {n : Size} {pa v : Word} (q : s.Quiet)
    (h : MemSys.Wrote s.platform.bigEndian n pa v s.memsys ms) : State.Quiet { s with memsys := ms } :=
  ⟨h.canonical q.canonical, h.calm, q.dbgen, q.ack⟩

/-! ## A flat machine -/

theorem fcse_zero (va : Word) : fcse 0#7 va = va := by
  unfold fcse
  split
  · rename_i h
    apply BitVec.eq_of_getLsbD_eq
    intro i hi
    simp only [BitVec.getLsbD_append, BitVec.getLsbD_extractLsb']
    by_cases h25 : i < 25
    · simp [h25]
    · have : (va.extractLsb' 25 7).getLsbD (i - 25) = false := by rw [h]; simp
      rw [BitVec.getLsbD_extractLsb'] at this
      simp only [h25, if_false, decide_false, Bool.false_and]
      simpa [show i - 25 < 7 by omega, show 25 + (i - 25) = i by omega] using this.symm
  · rfl

/-- On a flat machine every word access goes to the aligned address (R96, R113). -/
theorem State.Flat.reaches {s : State} (f : s.Flat) (k : Access) (priv : Bool) (va : Word) :
    s.Reaches k .word priv va ⟨va &&& 0xfffffffc, false, false, priv, none⟩ := by
  unfold State.Reaches MemSys.resolve MemSys.route
  simp [f.align, f.mmu, accessMva, f.pid, fcse_zero]

/-- A word read of a flat machine. -/
theorem State.Flat.datum {s : State} (f : s.Flat) (k : Access) (priv : Bool) (va : Word) :
    s.datum k .word va ⟨va &&& 0xfffffffc, false, false, priv, none⟩ = s.wordAt va := by
  unfold State.datum State.wordRead State.wordAt lanes
  simp [Cp15.cacheOn, f.mmu]

end Sys2Proof.Machine
end

