-- ==== Sys2Proof/Laws/Bits.lean ====
section
/-! SUPPORT. The fields of concatenated words and the codes of conditions, shifts and flags, for proofs about
the decoder and the encoder. -/

namespace Sys2Proof

/-- A field above the lower part of a concatenation. -/
theorem extract_append_high {a b : Nat} (x : BitVec a) (y : BitVec b) (s n : Nat) (h : b ≤ s) :
    (x ++ y).extractLsb' s n = x.extractLsb' (s - b) n := by
  apply BitVec.eq_of_getLsbD_eq
  intro i hi
  simp only [BitVec.getLsbD_extractLsb', hi, decide_true, Bool.true_and, BitVec.getLsbD_append,
    show ¬ s + i < b by omega, if_false]
  congr 1
  omega

/-- A field inside the lower part of a concatenation. -/
theorem extract_append_low {a b : Nat} (x : BitVec a) (y : BitVec b) (s n : Nat) (h : s + n ≤ b) :
    (x ++ y).extractLsb' s n = y.extractLsb' s n := by
  apply BitVec.eq_of_getLsbD_eq
  intro i hi
  simp only [BitVec.getLsbD_extractLsb', hi, decide_true, Bool.true_and, BitVec.getLsbD_append,
    show s + i < b by omega, if_true]

/-- Two adjacent fields are one. -/
theorem extract_join {w : Nat} (x : BitVec w) (s m n : Nat) :
    x.extractLsb' (s + n) m ++ x.extractLsb' s n = x.extractLsb' s (m + n) := by
  apply BitVec.eq_of_getLsbD_eq
  intro i hi
  simp only [BitVec.getLsbD_append, BitVec.getLsbD_extractLsb', hi, decide_true, Bool.true_and]
  by_cases h : i < n
  · simp [h]
  · simp only [h, if_false, show i - n < m by omega, decide_true, Bool.true_and]
    congr 1
    omega

/-- A field of a field. -/
theorem extract_extract {w : Nat} (x : BitVec w) (s m t n : Nat) (h : t + n ≤ m) :
    (x.extractLsb' s m).extractLsb' t n = x.extractLsb' (s + t) n := by
  apply BitVec.eq_of_getLsbD_eq
  intro i hi
  simp only [BitVec.getLsbD_extractLsb', hi, show t + i < m by omega, decide_true, Bool.true_and]
  congr 1
  omega

@[simp] theorem flagBit_beq (b : Bool) : (flagBit b == 1#1) = b := by cases b <;> rfl

@[simp] theorem flagBit_bitAt {w : Nat} (x : BitVec w) (i : Nat) : flagBit (bitAt x i) = x.extractLsb' i 1 := by
  have h : ∀ b : BitVec 1, flagBit (b == 1#1) = b := by decide
  exact h _

theorem bitAt_eq_getLsbD {w : Nat} (x : BitVec w) (i : Nat) : bitAt x i = x.getLsbD i := by
  have h : bitAt x i = (x.extractLsb' i 1).getLsbD 0 := by
    simp only [bitAt]
    generalize x.extractLsb' i 1 = b
    revert b
    decide
  rw [h]
  simp

@[simp] theorem Cond.ofBits_bits (c : Cond) : Cond.ofBits c.bits = some c := by cases c <;> rfl

theorem Cond.ofBits_eq_some {b : BitVec 4} {c : Cond} : Cond.ofBits b = some c ↔ c.bits = b := by
  revert b c
  intro b c
  cases c <;> revert b <;> decide

theorem Cond.ofBits_eq_none {b : BitVec 4} : Cond.ofBits b = none ↔ b = 15 := by
  revert b
  decide

@[simp] theorem ShiftType.ofBits_bits (sh : ShiftType) : ShiftType.ofBits sh.bits = sh := by
  cases sh <;> rfl

@[simp] theorem ShiftType.bits_ofBits (b : BitVec 2) : (ShiftType.ofBits b).bits = b := by
  revert b
  decide

end Sys2Proof
end

