-- ==== Sys2Proof/Laws/Block.lean ====
section
/-! SUPPORT. Sequences of word accesses on a quiet machine (R331), and the registers a block load
writes. -/

namespace Sys2Proof.Machine

/-- Memory kept, words read are the same. -/
theorem State.wordAt_kept {s : State} {ms : MemSys} (h : MemSys.Kept s.platform.bigEndian s.memsys ms)
    (a : Word) : State.wordAt { s with memsys := ms } a = s.wordAt a := by
  unfold State.wordAt State.settled
  rw [h.settled]

/-- The words of a block load: one for each register, in ascending order, memory kept (R331). -/
theorem State.loadWords_reads {s : State} {k : Access} {priv : Bool} {regs : List Reg} {ws : List Word}
    {a : Word} {b : Block} (q : s.Quiet) (h : s.ReadsWords k priv a ws) (l : regs.length = ws.length)
    (ha : b.abort = none) (hs : b.stop = none) :
    ∃ ms, s.loadWords k priv regs a b =
        ({ b with loaded := b.loaded ++ regs.zip ws }, { s with memsys := ms }) ∧
      MemSys.Kept s.platform.bigEndian s.memsys ms := by
  induction regs generalizing s k a b ws with
  | nil => exact ⟨s.memsys, by simp [State.loadWords], MemSys.Kept.refl q.calm⟩
  | cons i rest ih =>
    cases ws with
    | nil => exact absurd l (by simp)
    | cons w ws =>
      obtain ⟨⟨r, hr, rfl⟩, h'⟩ := h
      obtain ⟨ms, e, h1⟩ := State.load_quiet q hr
      rw [e] at h'
      obtain ⟨ms', e', h2⟩ := ih (s := { s with memsys := ms }) (a := a + 4)
        (b := { b with loaded := b.loaded ++ [(i, s.datum k .word a r)] }) (q.kept h1) h'
        (by simpa using l) ha hs
      refine ⟨ms', ?_, h1.trans h2⟩
      have he : b.ended s.platform.stmContinue = false := by simp [Block.ended, ha, hs]
      have ht : b.take i (.ok (s.datum k .word a r)) =
          { b with loaded := b.loaded ++ [(i, s.datum k .word a r)] } := by
        simp [Block.take, ha]
      unfold State.loadWords
      rw [he, e]
      simp only [Bool.false_eq_true, if_false]
      rw [ht, e']
      simp

/-- The words of a block store, in ascending order (R331): nothing but memory changes. -/
theorem State.storeWords_writes {s : State} {k : Access} {priv : Bool} {vs pas : List Word} {a : Word}
    {b : Block} (q : s.Quiet) (h : s.WritesWords k priv a vs pas) (ha : b.abort = none) (hs : b.stop = none) :
    ∃ ms, s.storeWords k priv vs a b = (b, { s with memsys := ms }) ∧
      State.Quiet { s with memsys := ms } ∧ SameTestRegs s { s with memsys := ms } ∧
      ∀ x, State.byteAt { s with memsys := ms } x =
        (storedWords s.platform.bigEndian pas vs x).getD (s.byteAt x) := by
  induction vs generalizing s k a b pas with
  | nil =>
    cases pas with
    | nil =>
      exact ⟨s.memsys, by simp [State.storeWords], q, ⟨rfl, rfl, rfl, rfl, rfl, rfl, rfl, rfl⟩, fun x => rfl⟩
    | cons p pas => exact absurd h (by simp [State.WritesWords])
  | cons v rest ih =>
    cases pas with
    | nil => exact absurd h (by simp [State.WritesWords])
    | cons p pas =>
    obtain ⟨⟨r, hr, rfl⟩, h'⟩ := h
    obtain ⟨ms, e, w⟩ := State.store_quiet (v := v) q hr
    rw [e] at h'
    obtain ⟨ms', e', q', t', y'⟩ := ih (s := { s with memsys := ms }) (a := a + 4) (b := b) (q.wrote w) h' ha hs
    refine ⟨ms', ?_, q', ?_, ?_⟩
    · have he : b.ended s.platform.stmContinue = false := by simp [Block.ended, ha, hs]
      unfold State.storeWords
      rw [he, e]
      simp only [Bool.false_eq_true, if_false, Block.takeStore]
      exact e'
    · exact ⟨t'.cacheVictim.trans w.cacheVictim, t'.cacheBase.trans w.cacheBase,
        t'.cacheStep.trans w.cacheStep, t'.c15c.trans w.c15c, t'.tlbBase.trans w.tlbBase,
        t'.tlbPreserve.trans w.tlbPreserve, t'.ram2Pointer.trans w.ram2Pointer, t'.c15m.trans w.c15m⟩
    · intro x
      have hw : State.byteAt { s with memsys := ms } x =
          (storedByte s.platform.bigEndian .word r.pa v x).getD (s.byteAt x) := by
        unfold State.byteAt State.settled
        rw [w.settled]
        exact Memory.get_store (MemSys.wf_settled q.calm q.canonical)
      rw [show State.byteAt { s with memsys := ms' } x =
        (storedWords s.platform.bigEndian pas rest x).getD (State.byteAt { s with memsys := ms } x)
        from y' x, hw, storedWords]
      cases storedWords s.platform.bigEndian pas rest x <;> rfl

/-! ## A flat machine -/

/-- The offsets of a block of words, and those of the block after its first. -/
theorem blockOffset_succ (a : Word) (k : Nat) :
    a + BitVec.ofNat 32 (4 * (k + 1)) = a + 4 + BitVec.ofNat 32 (4 * k) := by
  rw [BitVec.add_assoc]
  congr 1
  apply BitVec.eq_of_toNat_eq
  rw [BitVec.toNat_add, BitVec.toNat_ofNat, BitVec.toNat_ofNat, show (4 : Word).toNat = 4 from rfl]
  omega

theorem State.flatWords_succ (s : State) (a : Word) (n : Nat) :
    s.flatWords a (n + 1) = s.wordAt a :: s.flatWords (a + 4) n := by
  simp only [State.flatWords, List.range_succ_eq_map, List.map_cons, List.map_map, Nat.mul_zero]
  congr 1
  · simp
  · exact List.map_congr_left fun k _ => congrArg s.wordAt (blockOffset_succ a k)

theorem flatAddresses_succ (a : Word) (n : Nat) :
    flatAddresses a (n + 1) = (a &&& 0xfffffffc) :: flatAddresses (a + 4) n := by
  simp only [flatAddresses, List.range_succ_eq_map, List.map_cons, List.map_map, Nat.mul_zero]
  congr 1
  · simp
  · exact List.map_congr_left fun k _ => congrArg (· &&& 0xfffffffc) (blockOffset_succ a k)

theorem State.flatWords_length (s : State) (a : Word) (n : Nat) : (s.flatWords a n).length = n := by
  simp [State.flatWords]

/-- Memory kept, a block of words is the same. -/
theorem State.flatWords_kept {s : State} {ms : MemSys} (h : MemSys.Kept s.platform.bigEndian s.memsys ms)
    (a : Word) (n : Nat) : State.flatWords { s with memsys := ms } a n = s.flatWords a n :=
  List.map_congr_left fun _ _ => State.wordAt_kept h _

/-- On a flat quiet machine every block of reads is let through (R96, R113). -/
theorem State.Flat.readsWords {s : State} (f : s.Flat) (q : s.Quiet) (k : Access) (priv : Bool) (a : Word)
    (n : Nat) : s.ReadsWords k priv a (s.flatWords a n) := by
  induction n generalizing s k a with
  | zero => trivial
  | succ n ih =>
    rw [State.flatWords_succ]
    obtain ⟨ms, e, h⟩ := State.load_quiet q (f.reaches k priv a)
    refine ⟨⟨_, f.reaches k priv a, (f.datum k priv a).symm⟩, ?_⟩
    rw [e, ← State.flatWords_kept h]
    exact ih (s := { s with memsys := ms }) ⟨f.mmu, f.align, f.pid⟩ (q.kept h) k.next (a + 4)

/-- On a flat quiet machine every block of writes is let through. -/
theorem State.Flat.writesWords {s : State} (f : s.Flat) (q : s.Quiet) (k : Access) (priv : Bool) (a : Word)
    (vs : List Word) : s.WritesWords k priv a vs (flatAddresses a vs.length) := by
  induction vs generalizing s k a with
  | nil => trivial
  | cons v rest ih =>
    rw [List.length_cons, flatAddresses_succ]
    obtain ⟨ms, e, w⟩ := State.store_quiet (v := v) q (f.reaches k priv a)
    refine ⟨⟨_, f.reaches k priv a, rfl⟩, ?_⟩
    rw [e]
    exact ih (s := { s with memsys := ms }) ⟨f.mmu, f.align, f.pid⟩ (q.wrote w) k.next (a + 4)

/-! ## Words to and from a coprocessor -/

/-- What an access that no debugger watches depends on, and where it leaves a state (R100). -/
structure SameAccess (s t : State) : Prop where
  memsys : t.memsys = s.memsys
  cp15 : t.cp15 = s.cp15
  platform : t.platform = s.platform

theorem State.load_after {s : State} (q : s.Quiet) (k : Access) (n : Size) (priv : Bool) (va : Word) :
    (s.load k n priv va).2 =
      { s with memsys := (s.memsys.read s.platform.bigEndian s.cp15 k n priv va).2 } := by
  unfold State.load
  rw [State.debugSpeed_quiet q.ack]
  simp only [Bool.false_eq_true, if_false]
  split
  · rw [State.watch_quiet (by exact q.dbgen)]
    rfl
  · rw [State.watch_quiet (by exact q.dbgen)]
  · rfl

theorem State.store_after {s : State} (q : s.Quiet) (k : Access) (n : Size) (priv : Bool) (va v : Word) :
    (s.store k n priv va v).2 =
      { s with memsys := (s.memsys.write s.platform.bigEndian s.cp15 k n priv va v).2 } := by
  unfold State.store
  rw [State.debugSpeed_quiet q.ack]
  simp only [Bool.false_eq_true, if_false, State.watch_quiet q.dbgen]
  split <;> rfl

/-- A sequence of reads that is let through is let through in every state alike to it. -/
theorem State.ReadsWords.congr {kind : Access} {priv : Bool} {ws : List Word} {s t : State} {a : Word}
    (h : s.ReadsWords kind priv a ws) (q : s.Quiet) (u : t.Quiet) (e : SameAccess s t) :
    t.ReadsWords kind priv a ws := by
  induction ws generalizing s t kind a with
  | nil => trivial
  | cons w ws ih =>
    obtain ⟨⟨r, hr, rfl⟩, h'⟩ := h
    obtain ⟨ms, el, k⟩ := State.load_quiet q hr
    have ht : t.Reaches kind .word priv a r := by
      unfold State.Reaches; rw [e.memsys, e.cp15, e.platform]; exact hr
    refine ⟨⟨r, ht, ?_⟩, ih h' ?_ ?_ ?_⟩
    · unfold State.datum State.wordRead State.settled; rw [e.memsys, e.cp15, e.platform]
    · rw [el]; exact q.kept k
    · obtain ⟨mt, et, kt⟩ := State.load_quiet u ht
      rw [et]
      exact u.kept kt
    · rw [State.load_after u, State.load_after q]
      exact ⟨by simp only [e.memsys, e.cp15, e.platform], e.cp15, e.platform⟩

/-- A sequence of writes, likewise. -/
theorem State.WritesWords.congr {kind : Access} {priv : Bool} {vs pas : List Word} {s t : State} {a : Word}
    (h : s.WritesWords kind priv a vs pas) (q : s.Quiet) (u : t.Quiet) (e : SameAccess s t) :
    t.WritesWords kind priv a vs pas := by
  induction vs generalizing s t kind a pas with
  | nil => cases pas with
    | nil => trivial
    | cons p pas => exact absurd h (by simp [State.WritesWords])
  | cons v vs ih =>
    cases pas with
    | nil => exact absurd h (by simp [State.WritesWords])
    | cons p pas =>
    obtain ⟨⟨r, hr, rfl⟩, h'⟩ := h
    obtain ⟨ms, el, k⟩ := State.store_quiet (v := v) q hr
    have ht : t.Reaches kind .word priv a r := by
      unfold State.Reaches; rw [e.memsys, e.cp15, e.platform]; exact hr
    refine ⟨⟨r, ht, rfl⟩, ih h' ?_ ?_ ?_⟩
    · rw [el]; exact q.wrote k
    · obtain ⟨mt, et, kt⟩ := State.store_quiet (v := v) u ht
      rw [et]
      exact u.wrote kt
    · rw [State.store_after u, State.store_after q]
      exact ⟨by simp only [e.memsys, e.cp15, e.platform], e.cp15, e.platform⟩

/-- The kind of the next word of LDC. -/
theorem loadKind_next (k : Nat) : (loadKind k).next = loadKind (k + 1) := by
  unfold loadKind
  split <;> rfl

/-- The words of an LDC (R360): each told to the coprocessor in order, memory kept. -/
theorem State.loadCoproc_reads {s : State} {cp crd : BitVec 4} {n : Bool} {opt : Option (BitVec 8)}
    {ws : List Word} {a : Word} {k : Nat} (q : s.Quiet) (h : s.ReadsWords (loadKind k) s.privileged a ws) :
    ∃ ms, s.loadCoproc cp crd n opt ws.length k a =
        (.ok (), { s with
          memsys := ms, calls := s.calls ++ (ws.zipIdx k).map fun p => .loadWord cp crd n opt p.2 p.1 }) ∧
      MemSys.Kept s.platform.bigEndian s.memsys ms := by
  induction ws generalizing s a k with
  | nil => exact ⟨s.memsys, by simp [State.loadCoproc], MemSys.Kept.refl q.calm⟩
  | cons w ws ih =>
    obtain ⟨⟨r, hr, rfl⟩, h'⟩ := h
    obtain ⟨ms, e, x⟩ := State.load_quiet q hr
    rw [e, loadKind_next] at h'
    have q' := q.kept x
    obtain ⟨ms', e', x'⟩ := ih (k := k + 1) (a := a + 4)
      (s := State.call (.loadWord cp crd n opt k (s.datum (loadKind k) .word a r)) { s with memsys := ms })
      ⟨q'.canonical, q'.calm, q'.dbgen, q'.ack⟩
      (h'.congr q' ⟨q'.canonical, q'.calm, q'.dbgen, q'.ack⟩ ⟨rfl, rfl, rfl⟩)
    refine ⟨ms', ?_, x.trans x'⟩
    rw [List.length_cons, State.loadCoproc, e]
    simp only
    rw [e']
    simp [State.call]

/-- The words of an STC (R361): each told to the coprocessor in order, nothing but memory changes. -/
theorem State.storeCoproc_writes {s : State} {cp crd : BitVec 4} {n : Bool} {opt : Option (BitVec 8)}
    {vs pas : List Word} {a : Word} {k : Nat} (q : s.Quiet) (h : s.WritesWords .write s.privileged a vs pas) :
    ∃ ms, s.storeCoproc cp crd n opt vs k a =
        (.ok (), { s with
          memsys := ms
          calls := s.calls ++ (List.range vs.length).map fun j => .storeWord cp crd n opt (k + j) }) ∧
      State.Quiet { s with memsys := ms } ∧ SameTestRegs s { s with memsys := ms } ∧
      ∀ x, State.byteAt { s with memsys := ms } x =
        (storedWords s.platform.bigEndian pas vs x).getD (s.byteAt x) := by
  induction vs generalizing s a k pas with
  | nil =>
    cases pas with
    | nil => exact ⟨s.memsys, by simp [State.storeCoproc], q, ⟨rfl, rfl, rfl, rfl, rfl, rfl, rfl, rfl⟩, fun x => rfl⟩
    | cons p pas => exact absurd h (by simp [State.WritesWords])
  | cons v vs ih =>
    cases pas with
    | nil => exact absurd h (by simp [State.WritesWords])
    | cons p pas =>
    have q1 : (s.call (.storeWord cp crd n opt k)).Quiet := ⟨q.canonical, q.calm, q.dbgen, q.ack⟩
    obtain ⟨⟨r, hr, rfl⟩, h'⟩ := h.congr q q1 ⟨rfl, rfl, rfl⟩
    obtain ⟨ms, e, w⟩ := State.store_quiet (v := v) q1 hr
    rw [e] at h'
    obtain ⟨ms', e', q', t', y'⟩ := ih (k := k + 1) (a := a + 4)
      (s := { s.call (.storeWord cp crd n opt k) with memsys := ms }) (q1.wrote w) h'
    refine ⟨ms', ?_, ⟨q'.canonical, q'.calm, q'.dbgen, q'.ack⟩, ?_, ?_⟩
    · rw [State.storeCoproc, e]
      simp only
      rw [e', List.length_cons, List.range_succ_eq_map]
      simp [State.call, Function.comp_def, Nat.add_assoc, Nat.add_comm 1]
    · exact ⟨t'.cacheVictim.trans w.cacheVictim, t'.cacheBase.trans w.cacheBase,
        t'.cacheStep.trans w.cacheStep, t'.c15c.trans w.c15c, t'.tlbBase.trans w.tlbBase,
        t'.tlbPreserve.trans w.tlbPreserve, t'.ram2Pointer.trans w.ram2Pointer, t'.c15m.trans w.c15m⟩
    · intro x
      have hw : State.byteAt { s with memsys := ms } x =
          (storedByte s.platform.bigEndian .word r.pa v x).getD (s.byteAt x) := by
        unfold State.byteAt State.settled
        rw [show (MemSys.drain s.platform.bigEndian ms).mem =
          (MemSys.drain s.platform.bigEndian s.memsys).mem.store s.platform.bigEndian .word r.pa v
          from w.settled]
        exact Memory.get_store (MemSys.wf_settled q.calm q.canonical)
      rw [show State.byteAt { s with memsys := ms' } x =
        (storedWords s.platform.bigEndian pas vs x).getD (State.byteAt { s with memsys := ms } x)
        from y' x, hw, storedWords]
      cases storedWords s.platform.bigEndian pas vs x <;> rfl

/-! ## Registers of a block load -/

/-- The registers of a list are in rising order, none twice. -/
theorem listedRegs_nodup {w : Nat} (hw : w ≤ 16) (list : BitVec w) : (listedRegs list).Nodup := by
  unfold listedRegs
  refine List.Nodup.map_on ?_ (List.Nodup.filter _ List.nodup_range)
  intro a ha b hb e
  have ha' := List.mem_range.1 (List.mem_of_mem_filter ha)
  have hb' := List.mem_range.1 (List.mem_of_mem_filter hb)
  have := congrArg BitVec.toNat e
  simpa [Nat.mod_eq_of_lt (show a < 16 by omega), Nat.mod_eq_of_lt (show b < 16 by omega)] using this

/-- A register is in the list when its bit is set (R191). -/
theorem mem_listedRegs {w : Nat} (hw : w ≤ 16) (list : BitVec w) (i : Reg) :
    i ∈ listedRegs list ↔ list.getLsbD i.toNat = true := by
  unfold listedRegs
  simp only [List.mem_map, List.mem_filter, List.mem_range]
  constructor
  · rintro ⟨k, ⟨hk, hb⟩, rfl⟩
    simpa [Nat.mod_eq_of_lt (show k < 16 by omega)] using hb
  · intro h
    refine ⟨i.toNat, ⟨?_, h⟩, by simp⟩
    by_contra hc
    rw [BitVec.getLsbD_of_ge list i.toNat (by omega)] at h
    exact absurd h (by simp)

/-- A loaded word that is in no later entry of the list stands in its register (R331). -/
theorem State.writeLoaded_other (m : Mode) (x : Option Reg) (l : List (Reg × Word)) (s : State)
    (k : Fin 30) (h : ∀ p ∈ l, p.1 ≠ 15 → x ≠ some p.1 → phys m p.1 ≠ k) :
    (State.writeLoaded m x l s).regs[k] = s.regs[k] := by
  induction l generalizing s with
  | nil => rfl
  | cons p rest ih =>
    obtain ⟨i, w⟩ := p
    simp only [State.writeLoaded]
    rw [ih _ fun q hq => h q (List.mem_cons_of_mem _ hq)]
    split
    · rfl
    · rename_i hx
      by_cases hi : i = 15
      · simp [State.setBankReg, hi]
      · rw [State.setBankReg_getElem _ _ _ _ _ hi,
          if_neg (fun e => h (i, w) List.mem_cons_self hi hx e.symm)]

/-- Each loaded register holds its word (R331), but the excluded one and r15. -/
theorem State.writeLoaded_mem (m : Mode) (x : Option Reg) (l : List (Reg × Word)) (s : State)
    (nd : (l.map Prod.fst).Nodup) {i : Reg} {w : Word} (h : (i, w) ∈ l) (hi : i ≠ 15) (hx : x ≠ some i) :
    (State.writeLoaded m x l s).regs[phys m i] = w := by
  induction l generalizing s with
  | nil => exact absurd h (by simp)
  | cons p rest ih =>
    obtain ⟨j, v⟩ := p
    simp only [List.map_cons, List.nodup_cons] at nd
    simp only [State.writeLoaded]
    rcases List.mem_cons.1 h with e | h'
    · obtain ⟨rfl, rfl⟩ := Prod.mk.inj e
      rw [State.writeLoaded_other, if_neg hx, State.setBankReg_getElem _ _ _ _ _ hi, if_pos rfl]
      intro q hq hq15 _ e
      have := (phys_inj m q.1 i hq15 hi).1 e
      exact nd.1 (List.mem_map.2 ⟨q, hq, this⟩)
    · exact ih _ nd.2 h'

/-- What writing loaded words changes besides the general registers: nothing. -/
theorem State.writeLoaded_eq (m : Mode) (x : Option Reg) (l : List (Reg × Word)) (s : State) :
    ∃ r, State.writeLoaded m x l s = { s with regs := r } := by
  induction l generalizing s with
  | nil => exact ⟨s.regs, rfl⟩
  | cons p rest ih =>
    obtain ⟨i, w⟩ := p
    simp only [State.writeLoaded]
    split
    · exact ih s
    · unfold State.setBankReg
      split
      · exact ih s
      · obtain ⟨r, e⟩ := ih { s with regs := s.regs.set (phys m i) w }
        exact ⟨r, e⟩

end Sys2Proof.Machine
end

