-- ==== Sys2Proof/Tests/Slice0.lean ====
section
/-! SUPPORT. Tests: the well-formedness check on ill-formed terms, words written out from the encodings of
spec/ with the instructions they stand for, one step of an instruction on a small state with the result
95_test_vectors.md or the instruction's rule gives, and a state that meets the hypotheses of each statement. -/

namespace Sys2Proof.Tests

open Sys2Proof.Machine

/-! ## Well-formedness -/

theorem test_wellFormed_accepts : [
    Instr.armAdd .al true 1 0 (.shiftReg .lsl 2 3), .armMul .al false 0 1 2, .armLdmia .al true true 1 0x8001,
    .armLdc .al false true false false 1 2 7 4, .thumbBCond .eq 0, .thumbUndefB 0x100, .thumbAddHi 8 0,
    .thumbPush true 0].all Instr.wellFormed = true := by decide

theorem test_wellFormed_refuses_conditionAl : (Instr.thumbBCond .al 0).wellFormed = false := by decide

theorem test_wellFormed_refuses_allocatedUndefined :
    [Instr.thumbUndefB 0x080, .thumbUndefB 0x410, .thumbUndefB 0xd10].all (fun i => !i.wellFormed) = true := by
  decide

theorem test_wellFormed_refuses_r15Operand :
    [Instr.armAdd .al false 15 0 (.shiftReg .lsl 1 2), .armMul .al false 15 1 2, .armUmull .al false 0 1 15 2,
      .armSwp .al 15 0 1, .armMrs .al false 15, .armMsrReg .al false 9 15, .armBx .al 15,
      .armLdr .al .offset true 0 1 (.reg .lsl 0 15), .armMcr .al 0 1 15 15 0 0].all
        (fun i => i.broken == some .r15Operand && !i.wellFormed) = true := by decide

theorem test_wellFormed_refuses_r15Data :
    [Instr.armLdrb .al .offset true 0 15 (.imm 0), .armStrt .al true 0 15 (.imm 0),
      .armLdrh .al .offset true 0 15 (.imm 0)].all
        (fun i => i.broken == some .r15Data && !i.wellFormed) = true := by decide

theorem test_wellFormed_refuses_r15Base :
    [Instr.armLdr .al .pre true 15 0 (.imm 0), .armLdmia .al false false 15 1,
      .armLdc .al true true false true 15 2 7 4].all
        (fun i => i.broken == some .r15Base && !i.wellFormed) = true := by decide

theorem test_wellFormed_refuses_sameRegister :
    [Instr.armMul .al false 1 2 1, .armUmull .al false 0 0 1 2, .armSwp .al 1 0 1, .armSwpb .al 1 1 0,
      .thumbMul 3 3].all (fun i => i.broken == some .sameRegister && !i.wellFormed) = true := by decide

theorem test_wellFormed_refuses_offsetIsBase :
    [Instr.armLdr .al .post true 1 0 (.reg .lsl 0 1), .armLdrsb .al .pre true 1 0 (.reg 1)].all
        (fun i => i.broken == some .offsetIsBase && !i.wellFormed) = true := by decide

theorem test_wellFormed_refuses_dataIsBase :
    [Instr.armLdr .al .pre true 1 1 (.imm 0), .armStrbt .al true 1 1 (.imm 0),
      .armLdrh .al .post true 1 1 (.imm 0)].all
        (fun i => i.broken == some .dataIsBase && !i.wellFormed) = true := by decide

theorem test_wellFormed_refuses_baseInList :
    [Instr.armLdmia .al false true 1 2, .armStmdb .al false true 1 3, .thumbStmia 1 3, .thumbLdmia 1 2].all
        (fun i => i.broken == some .baseInList && !i.wellFormed) = true := by decide

theorem test_wellFormed_refuses_emptyList :
    [Instr.armLdmia .al false false 0 0, .armStmdb .al false true 0 0, .thumbPush false 0, .thumbPop false 0,
      .thumbStmia 0 0, .thumbLdmia 0 0].all
        (fun i => i.broken == some .emptyList && !i.wellFormed) = true := by decide

theorem test_wellFormed_refuses_userBankWriteBack :
    [Instr.armLdmia .al true true 1 1, .armStmia .al true true 0 0x8001].all
        (fun i => i.broken == some .userBankWriteBack && !i.wellFormed) = true := by decide

theorem test_wellFormed_refuses_unindexedDown :
    (Instr.armLdc .al false false false false 1 2 7 4).broken = some .unindexedDown := by decide

theorem test_wellFormed_refuses_highRegister :
    [Instr.thumbAddHi 1 0, .thumbMovHi 1 0, .thumbCmpHi 1 0, .thumbCmpHi 1 15].all
        (fun i => i.broken == some .highRegister && !i.wellFormed) = true := by decide

/-! ## Decoding -/

/-- Words decode to the instructions beside them, and the instructions encode to the words. -/
def decodes (nbits : Nat) (l : List (Nat × Instr)) : Bool :=
  l.all fun p => decodeTableWord nbits p.1 == some p.2 &&
    encode p.2 == (if nbits = 16 then .thumb (BitVec.ofNat 16 p.1) else .arm (BitVec.ofNat 32 p.1))

theorem test_decode_armDataProcessing : decodes 32 [
    (0xE0010002, .armAnd .al false 1 0 (.shiftImm .lsl 0 2)),
    (0xE0200000, .armEor .al false 0 0 (.shiftImm .lsl 0 0)),
    (0xE0510002, .armSub .al true 1 0 (.shiftImm .lsl 0 2)),
    (0xE2600000, .armRsb .al false 0 0 (.imm 0 0)),
    (0x028F0000, .armAdd .eq false 15 0 (.imm 0 0)),
    (0xE0B10003, .armAdc .al true 1 0 (.shiftImm .lsl 0 3)),
    (0xE0D10002, .armSbc .al true 1 0 (.shiftImm .lsl 0 2)),
    (0xE2F10000, .armRsc .al true 1 0 (.imm 0 0)),
    (0xE3100102, .armTst .al 0 (.imm 1 2)),
    (0xE1300001, .armTeq .al 0 (.shiftImm .lsl 0 1)),
    (0xE1510002, .armCmp .al 1 (.shiftImm .lsl 0 2)),
    (0xE3700001, .armCmn .al 0 (.imm 0 1)),
    (0xE1900201, .armOrr .al true 0 0 (.shiftImm .lsl 4 1)),
    (0xE1B00271, .armMov .al true 0 (.shiftReg .ror 2 1)),
    (0xE1D10002, .armBic .al true 1 0 (.shiftImm .lsl 0 2)),
    (0xE3E00000, .armMvn .al false 0 (.imm 0 0))] = true := by decide

theorem test_decode_armMultiplySwap : decodes 32 [
    (0xE0100291, .armMul .al true 0 2 1),
    (0xE0203291, .armMla .al false 0 3 2 1),
    (0xE0810392, .armUmull .al false 1 0 3 2),
    (0xE0A10392, .armUmlal .al false 1 0 3 2),
    (0xE0C10392, .armSmull .al false 1 0 3 2),
    (0xE0F10392, .armSmlal .al true 1 0 3 2),
    (0xE1020091, .armSwp .al 2 0 1),
    (0xE1420091, .armSwpb .al 2 0 1)] = true := by decide

theorem test_decode_armStatusBranch : decodes 32 [
    (0xE10F0000, .armMrs .al false 0),
    (0xE14F1000, .armMrs .al true 1),
    (0xE16FF001, .armMsrReg .al true 15 1),
    (0xE328F20F, .armMsrImm .al false 8 2 15),
    (0x112FFF1E, .armBx .ne 14),
    (0xEAFFFFFE, .armB .al 0xfffffe),
    (0xEB0003FE, .armBl .al 0x3fe),
    (0xEF123456, .armSwi .al 0x123456),
    (0xE7F000F0, .armUndefMedia .al 0xf8007 0),
    (0xE3400001, .armUndefMsr .al true 1)] = true := by decide

theorem test_decode_armLoadStore : decodes 32 [
    (0xE7110102, .armLdr .al .offset false 1 0 (.reg .lsl 2 2)),
    (0xE5210004, .armStr .al .pre false 1 0 (.imm 4)),
    (0xE6D10062, .armLdrb .al .post true 1 0 (.reg .ror 0 2)),
    (0xE5C10001, .armStrb .al .offset true 1 0 (.imm 1)),
    (0xE4B10004, .armLdrt .al true 1 0 (.imm 4)),
    (0xE4210004, .armStrt .al false 1 0 (.imm 4)),
    (0xE4F10004, .armLdrbt .al true 1 0 (.imm 4)),
    (0xE4E10004, .armStrbt .al true 1 0 (.imm 4)),
    (0xE1C101B2, .armStrh .al .offset true 1 0 (.imm 0x12)),
    (0xE09100B2, .armLdrh .al .post true 1 0 (.reg 2)),
    (0xE1F100D3, .armLdrsb .al .pre true 1 0 (.imm 3)),
    (0xE15100F2, .armLdrsh .al .offset false 1 0 (.imm 2))] = true := by decide

theorem test_decode_armBlock : decodes 32 [
    (0xE8B0000E, .armLdmia .al false true 0 0xe),
    (0xE9900006, .armLdmib .al false false 0 6),
    (0xE8100006, .armLdmda .al false false 0 6),
    (0xE9300006, .armLdmdb .al false true 0 6),
    (0xE8C06000, .armStmia .al true false 0 0x6000),
    (0xE9800006, .armStmib .al false false 0 6),
    (0xE8000006, .armStmda .al false false 0 6),
    (0xE92D400F, .armStmdb .al false true 13 0x400f)] = true := by decide

theorem test_decode_armCoprocessor : decodes 32 [
    (0xEE1327A4, .armCdp .al 1 3 2 7 5 4),
    (0xED912704, .armLdc .al true true false false 1 2 7 4),
    (0xECE12704, .armStc .al false true true true 1 2 7 4),
    (0xEE080F37, .armMcr .al 0 8 0 15 1 7),
    (0xEEFFAFF3, .armMrc .al 7 15 10 15 7 3)] = true := by decide

theorem test_decode_thumbShiftImmediate : decodes 16 [
    (0x07C8, .thumbLslImm 31 1 0),
    (0x0808, .thumbLsrImm 0 1 0),
    (0x1008, .thumbAsrImm 0 1 0),
    (0x1888, .thumbAddReg 2 1 0),
    (0x1A88, .thumbSubReg 2 1 0),
    (0x1DC8, .thumbAddImm3 7 1 0),
    (0x1FC8, .thumbSubImm3 7 1 0),
    (0x2055, .thumbMovImm 0 0x55),
    (0x29FF, .thumbCmpImm 1 0xff),
    (0x30FF, .thumbAddImm8 0 0xff),
    (0x3801, .thumbSubImm8 0 1)] = true := by decide

theorem test_decode_thumbRegister : decodes 16 [
    (0x4008, .thumbAnd 1 0),
    (0x4048, .thumbEor 1 0),
    (0x4088, .thumbLslReg 1 0),
    (0x40C8, .thumbLsrReg 1 0),
    (0x4108, .thumbAsrReg 1 0),
    (0x4148, .thumbAdc 1 0),
    (0x4188, .thumbSbc 1 0),
    (0x41C8, .thumbRor 1 0),
    (0x4208, .thumbTst 1 0),
    (0x4248, .thumbNeg 1 0),
    (0x4288, .thumbCmpReg 1 0),
    (0x42C8, .thumbCmn 1 0),
    (0x4308, .thumbOrr 1 0),
    (0x4348, .thumbMul 1 0),
    (0x4388, .thumbBic 1 0),
    (0x43C8, .thumbMvn 1 0),
    (0x4440, .thumbAddHi 8 0),
    (0x45C8, .thumbCmpHi 9 8),
    (0x4680, .thumbMovHi 0 8),
    (0x4708, .thumbBx 1),
    (0xA0FF, .thumbAddPc 0 0xff),
    (0xA802, .thumbAddSp 0 2),
    (0xB07F, .thumbIncSp 0x7f),
    (0xB082, .thumbDecSp 2)] = true := by decide

theorem test_decode_thumbLoadStore : decodes 16 [
    (0x4801, .thumbLdrPc 0 1),
    (0x5088, .thumbStrReg 2 1 0),
    (0x5488, .thumbStrbReg 2 1 0),
    (0x5888, .thumbLdrReg 2 1 0),
    (0x5C88, .thumbLdrbReg 2 1 0),
    (0x5288, .thumbStrhReg 2 1 0),
    (0x5688, .thumbLdrsbReg 2 1 0),
    (0x5A88, .thumbLdrhReg 2 1 0),
    (0x5E88, .thumbLdrshReg 2 1 0),
    (0x67C8, .thumbStrImm 31 1 0),
    (0x6848, .thumbLdrImm 1 1 0),
    (0x77C8, .thumbStrbImm 31 1 0),
    (0x7848, .thumbLdrbImm 1 1 0),
    (0x87C8, .thumbStrhImm 31 1 0),
    (0x8848, .thumbLdrhImm 1 1 0),
    (0x90FF, .thumbStrSp 0 0xff),
    (0x9801, .thumbLdrSp 0 1),
    (0xB511, .thumbPush true 0x11),
    (0xBC11, .thumbPop false 0x11),
    (0xC006, .thumbStmia 0 6),
    (0xC806, .thumbLdmia 0 6)] = true := by decide

theorem test_decode_thumbBranch : decodes 16 [
    (0xD006, .thumbBCond .eq 6),
    (0xDFFF, .thumbSwi 0xff),
    (0xE3FE, .thumbB 0x3fe),
    (0xF7FE, .thumbBlHigh 0x7fe),
    (0xF87E, .thumbBlLow 0x7e),
    (0xB100, .thumbUndefB 0x100),
    (0xDE00, .thumbUndefDe 0),
    (0xE800, .thumbUndefE8 0)] = true := by decide

/-- Rejected by name: condition b1111 (R198), TST with Rd (R262), MUL space and halfword space (R184 row 6), the
control space (row 11), mode 3 with P = 0 and W = 1 (R190), Thumb BX with H1 (R206). -/
theorem test_decode_rejects :
    decode (.arm 0xF0000000) = .error .condition1111 ∧ decode (.arm 0xE1101001) = .error .sbz ∧
    decode (.arm 0xE0400090) = .error .multiplySpace ∧ decode (.arm 0xE00000D0) = .error .multiplySpace ∧
    decode (.arm 0xE1200050) = .error .controlSpace ∧
    decode (.arm 0xE0F100B2) = .error .mode3PostWriteBack ∧ decode (.thumb 0x4788) = .error .thumbBx := by decide

/-! ## One step

Each test runs one step on a machine with the named registers and words and compares what the vector of
95_test_vectors.md (`v40_1` is vector 40.1) or the rule (`r305`) gives. -/

/-- A vector: an instruction and the state before it, and what is compared after it. -/
structure Case where
  w : Nat
  th : Bool := false
  pc : Word := 0x8000
  cpsr : Word := 0xd3
  regs : List (Reg × Word) := []
  mem : List (Word × Word) := []
  B : Bool := false
  A : Bool := false
  f : State → State := id
  er : List (Reg × Word) := []
  em : List (Word × Word) := []
  ec : Option Word := none
  ep : Option Word := none
  refused : Bool := false
  chk : State → Bool := fun _ => true

/-- The machine a vector starts from. -/
def machine (pc cpsr : Word) (regs : List (Reg × Word)) (mem : List (Word × Word)) (B A : Bool) : State :=
  let s : State := { State.reset with
    pc := pc, cpsr := cpsr
    cp15 := { Cp15.reset with control := 0x70 ||| (if B then 0x80 else 0) ||| (if A then 2 else 0) }
    platform := ⟨B, 0, false, false, 4, 0⟩
    memsys := { MemSys.reset with mem := mem.foldl (fun m p => m.setWord B p.1 p.2) [] } }
  regs.foldl (fun s p => s.setReg p.1 p.2) s

def Case.start (t : Case) : State :=
  let s := t.f (machine t.pc t.cpsr t.regs t.mem t.B t.A)
  s.withFetchWord (if t.th then 16 else 32) t.w

def Case.holds (t : Case) : Bool :=
  match step t.start with
  | .next s =>
    !t.refused && t.er.all (fun p => s.reg p.1 == p.2) &&
      t.em.all (fun p => s.memsys.mem.word t.B p.1 == p.2) &&
      (match t.ec with | some c => s.cpsr == c | none => true) &&
      s.pc == t.ep.getD (t.pc + (if t.th then 2 else 4)) && t.chk s
  | _ => t.refused

def flags (n z c v : Nat) (low : Word := 0xd3) : Word :=
  (BitVec.ofNat 32 (n * 8 + z * 4 + c * 2 + v) <<< 28) ||| low

def thumbFlags (n z c v : Nat) : Option Word := some (flags n z c v 0xf3)

def lowWords : List (Word × Word) := [(0x1000, 0x89ABCDEF), (0x1004, 0x11111111)]

def fourWords : List (Word × Word) := [(0x1000, 0x11), (0x1004, 0x22), (0x1008, 0x33), (0x100c, 0x44)]

/-- A load or store vector of chapter 44: r1 holds 0x1000, the words are `lowWords`. -/
def load (w : Nat) (er : List (Reg × Word)) (regs : List (Reg × Word) := []) (B : Bool := false)
    (em : List (Word × Word) := []) : Case :=
  { w := w, regs := (1, 0x1000) :: regs, er := er, em := em, mem := lowWords, B := B }

/-- A Thumb vector. -/
def thumb (w : Nat) (regs er : List (Reg × Word)) (ec : Option Word := none) (cpsr : Word := 0xf3) : Case :=
  { w := w, th := true, regs := regs, er := er, cpsr := cpsr, ec := ec }

/-- Coprocessor 7 attached, ready with these words. -/
def coproc7 (first : Word) (more : List Word) (s : State) : State :=
  { s with platform := { s.platform with extCoprocs := 0x80 }, coproc := [⟨.ready, first, more⟩] }

/-- Answers of the bus: OKAY and ERROR, no other master writing. -/
def okay : BusAnswer := ⟨[], .okay, 0⟩

def error : BusAnswer := ⟨[], .error, 0⟩

theorem test_armAnd_setsFlags_v40_24 : Case.holds
    ({ w := 0xE21104FF, cpsr := flags 0 0 0 0, regs := [(1, 0x12345678)], er := [(0, 0x12000000)],
       ec := some (flags 0 0 1 0) }) = true := by decide

theorem test_armEor_v40_31 : Case.holds
    ({ w := 0xE0200000, regs := [(0, 0xdeadbeef)], er := [(0, 0)],
       ec := some (flags 0 0 0 0) }) = true := by decide

theorem test_armSub_borrow_v40_4 : Case.holds
    ({ w := 0xE0510002, regs := [(1, 0), (2, 1)], er := [(0, 0xffffffff)],
       ec := some (flags 1 0 0 0) }) = true := by decide

theorem test_armSub_returns_v40_35 : Case.holds
    ({ w := 0xE25EF004, cpsr := 0xd2, regs := [(14, 0x8014)], f := fun s => { s with
       spsrIrq := 0x60000010 }, ep := some 0x8010, ec := some 0x60000010 }) = true := by decide

theorem test_armRsb_v40_12 : Case.holds
    ({ w := 0xE2600000, cpsr := flags 0 1 1 0, regs := [(0, 5)], er := [(0, 0xfffffffb)],
       ec := some (flags 0 1 1 0) }) = true := by decide

theorem test_armAdd_overflow_v40_1 : Case.holds
    ({ w := 0xE0910002, regs := [(1, 0x7fffffff), (2, 1)], er := [(0, 0x80000000)],
       ec := some (flags 1 0 0 1) }) = true := by decide

theorem test_armAdd_readsPc_v40_32 : Case.holds
    ({ w := 0xE28F0000, er := [(0, 0x8008)] }) = true := by decide

theorem test_armAdc_carryIn_v40_7 : Case.holds
    ({ w := 0xE0B10003, cpsr := flags 0 0 1 0, regs := [(1, 0xffffffff), (3, 0)], er := [(0, 0)],
       ec := some (flags 0 1 1 0) }) = true := by decide

theorem test_armSbc_v40_8 : Case.holds
    ({ w := 0xE0D10002, cpsr := flags 0 0 0 0, regs := [(1, 5), (2, 3)], er := [(0, 1)],
       ec := some (flags 0 0 1 0) }) = true := by decide

theorem test_armRsc_v40_10 : Case.holds
    ({ w := 0xE2F10000, cpsr := flags 0 0 1 0, regs := [(1, 1)], er := [(0, 0xffffffff)],
       ec := some (flags 1 0 0 0) }) = true := by decide

theorem test_armTst_v40_25 : Case.holds
    ({ w := 0xE3100102, regs := [(0, 0x80000000)], ec := some (flags 1 0 1 0) }) = true := by decide

theorem test_armTeq_v40_29 : Case.holds
    ({ w := 0xE1300001, cpsr := flags 0 0 1 1, regs := [(0, 0x1234), (1, 0x1234)],
       ec := some (flags 0 1 1 1) }) = true := by decide

theorem test_armCmp_overflow_v40_6 : Case.holds
    ({ w := 0xE1510002, regs := [(1, 0x80000000), (2, 1)], ec := some (flags 0 0 1 1) }) = true := by decide

theorem test_armCmn_v40_13 : Case.holds
    ({ w := 0xE3700001, regs := [(0, 0xffffffff)], ec := some (flags 0 1 1 0) }) = true := by decide

theorem test_armOrr_v40_30 : Case.holds
    ({ w := 0xE1900201, regs := [(0, 0), (1, 0x10000001)], er := [(0, 0x10)],
       ec := some (flags 0 0 1 0) }) = true := by decide

theorem test_armMov_rrx_v40_16 : Case.holds
    ({ w := 0xE1B00061, cpsr := flags 0 0 1 0, regs := [(1, 1)], er := [(0, 0x80000000)],
       ec := some (flags 1 0 1 0) }) = true := by decide

theorem test_armMov_returnsToThumb_v40_36 : Case.holds
    ({ w := 0xE1B0F00E, regs := [(14, 0x8003)], f := fun s => { s with
       spsrSvc := 0x30 }, ep := some 0x8002, ec := some 0x30 }) = true := by decide

theorem test_armBic_v40_28 : Case.holds
    ({ w := 0xE1D10002, cpsr := flags 0 0 1 0, regs := [(1, 0xffffffff), (2, 0xffff)], er := [(0,
       0xffff0000)], ec := some (flags 1 0 1 0) }) = true := by decide

theorem test_armMvn_v40_27 : Case.holds
    ({ w := 0xE3E00000, er := [(0, 0xffffffff)] }) = true := by decide

theorem test_armMla_v41_4 : Case.holds
    ({ w := 0xE0203291, regs := [(1, 3), (2, 4), (3, 5)], er := [(0, 17)] }) = true := by decide

theorem test_armUmull_v41_5 : Case.holds
    ({ w := 0xE0810392, regs := [(2, 0xffffffff), (3, 0xffffffff)], er := [(0, 1), (1,
       0xfffffffe)] }) = true := by decide

theorem test_armUmlal_carries_v41_8 : Case.holds
    ({ w := 0xE0A10392, regs := [(0, 0xffffffff), (1, 1), (2, 1), (3, 1)], er := [(0, 0), (1,
       2)] }) = true := by decide

theorem test_armSmlal_v41_9 : Case.holds
    ({ w := 0xE0E10392, regs := [(0, 0), (1, 0), (2, 0xffffffff), (3, 1)], er := [(0, 0xffffffff), (1,
       0xffffffff)] }) = true := by decide

theorem test_armMsrReg_userMode_v42_7 : Case.holds
    ({ w := 0xE12FF000, cpsr := 0x10, regs := [(0, 0xf00000d3)], ec := some 0xf0000010 }) = true := by decide

theorem test_armMsrReg_spsr_v42_10 : Case.holds
    ({ w := 0xE16FF001, cpsr := 0xd2, regs := [(1, 0x6000001f)], ec := some 0xd2,
       chk := fun s => s.spsrIrq = 0x6000001f }) = true := by decide

theorem test_armMsrImm_v42_5 : Case.holds
    ({ w := 0xE321F010, cpsr := 0x600000d3, ec := some 0x60000010 }) = true := by decide

theorem test_armB_self_v43_1 : Case.holds
    ({ w := 0xEAFFFFFE, ep := some 0x8000 }) = true := by decide

theorem test_armBl_v43_2 : Case.holds
    ({ w := 0xEB0003FE, er := [(14, 0x8004)], ep := some 0x9000 }) = true := by decide

theorem test_armBx_toThumb_v43_5 : Case.holds
    ({ w := 0xE12FFF10, regs := [(0, 0x9001)], ep := some 0x9000, ec := some 0xf3 }) = true := by decide

theorem test_armLdr_rotates_v44_17 : Case.holds
    (load 0xE5910000 [(0, 0xEF89ABCD)] [(1, 0x1001)]) = true := by decide

theorem test_armLdr_alignmentFault_v44_20 : Case.holds
    ({ w := 0xE5910000, regs := [(1, 0x1001), (0, 7)], A := true, mem := lowWords, ep := some 0x10,
       er := [(14, 0x8008), (0, 7)], chk := fun s => s.cp15.far = 0x1001 }) = true := by decide

theorem test_armStr_preIndexed_v44_5 : Case.holds
    (load 0xE5210004 [(1, 0x1004)] [(0, 0xaabbccdd), (1, 0x1008)] false [(0x1004,
       0xaabbccdd)]) = true := by decide

theorem test_armStr_pc_v44_24 : Case.holds
    (load 0xE581F000 [] [] false [(0x1000, 0x800c)]) = true := by decide

theorem test_armLdrb_little_v44_6 : Case.holds
    (load 0xE5D10003 [(0, 0x89)]) = true := by decide

theorem test_armLdrb_big_v44_7 : Case.holds
    (load 0xE5D10003 [(0, 0xef)] [] true) = true := by decide

theorem test_armStrb_little_v44_8 : Case.holds
    (load 0xE5C10001 [] [(0, 0x11223344)] false [(0x1000, 0x89AB44EF)]) = true := by decide

theorem test_armStrb_big_v44_9 : Case.holds
    (load 0xE5C10001 [] [(0, 0x11223344)] true [(0x1000, 0x8944CDEF)]) = true := by decide

theorem test_armStrh_little_v44_12 : Case.holds
    (load 0xE1C100B2 [] [(0, 0x11223344)] false [(0x1000, 0x3344CDEF)]) = true := by decide

theorem test_armStrh_big_v44_13 : Case.holds
    (load 0xE1C100B2 [] [(0, 0x11223344)] true [(0x1000, 0x89AB3344)]) = true := by decide

theorem test_armLdrh_v44_10 : Case.holds
    (load 0xE1D100B2 [(0, 0x89ab)]) = true := by decide

theorem test_armLdrsb_v44_14 : Case.holds
    (load 0xE1D100D3 [(0, 0xffffff89)]) = true := by decide

theorem test_armLdrsh_little_v44_15 : Case.holds
    (load 0xE1D100F2 [(0, 0xffff89ab)]) = true := by decide

theorem test_armLdrsh_big_v44_16 : Case.holds
    (load 0xE1D100F2 [(0, 0xffffcdef)] [] true) = true := by decide

theorem test_armLdmia_v45_1 : Case.holds
    ({ w := 0xE8B0000E, regs := [(0, 0x1000)], mem := fourWords, er := [(1, 0x11), (2, 0x22), (3, 0x33),
       (0, 0x100c)] }) = true := by decide

theorem test_armLdmia_restoresCpsr_v45_7 : Case.holds
    ({ w := 0xE8FD800F, cpsr := 0xd2, regs := [(13, 0x1fec)], f := fun s => { s with
       spsrIrq := 0x10 }, mem := [(0x1fec, 0xa0), (0x1ff0, 0xa1), (0x1ff4, 0xa2), (0x1ff8, 0xa3), (0x1ffc,
       0x8004)], er := [(0, 0xa0), (1, 0xa1), (2, 0xa2), (3, 0xa3)], ep := some 0x8004, ec := some 0x10,
       chk := fun s => s.regs[22]=0x2000 }) = true := by decide

theorem test_armLdmib_v45_2 : Case.holds
    ({ w := 0xE9900006, regs := [(0, 0x1000)], mem := fourWords, er := [(1, 0x22), (2, 0x33), (0,
       0x1000)] }) = true := by decide

theorem test_armLdmda_v45_3 : Case.holds
    ({ w := 0xE8100006, regs := [(0, 0x1008)], mem := fourWords, er := [(1, 0x22), (2, 0x33), (0,
       0x1008)] }) = true := by decide

theorem test_armLdmdb_v45_4 : Case.holds
    ({ w := 0xE9300006, regs := [(0, 0x1008)], mem := fourWords, er := [(1, 0x11), (2, 0x22), (0,
       0x1000)] }) = true := by decide

theorem test_armStmia_userBank_v45_8 : Case.holds
    ({ w := 0xE8C06000, cpsr := 0xd1, regs := [(0, 0x1000), (13, 0xf000)], f := fun s => { s with
       regs := (s.regs.set 13 0x7000).set 14 0x7004 }, em := [(0x1000, 0x7000), (0x1004, 0x7004)],
       chk := fun s => s.userBank }) = true := by decide

theorem test_armStmia_baseFirst_v45_10 : Case.holds
    ({ w := 0xE8A00003, regs := [(0, 0x1000), (1, 7)], em := [(0x1000, 0x1000), (0x1004, 7)], er := [(0,
       0x1008)] }) = true := by decide

theorem test_armStmdb_v45_5 : Case.holds
    ({ w := 0xE92D400F, regs := [(0, 0xa0), (1, 0xa1), (2, 0xa2), (3, 0xa3), (14, 0x8004), (13, 0x2000)],
       er := [(13, 0x1fec)], em := [(0x1fec, 0xa0), (0x1ff0, 0xa1), (0x1ff4, 0xa2), (0x1ff8, 0xa3),
       (0x1ffc, 0x8004)] }) = true := by decide

theorem test_armSwp_sameRegister_v46_2 : Case.holds
    ({ w := 0xE1020090, regs := [(0, 1), (2, 0x1000)], mem := [(0x1000, 2)], er := [(0, 2)],
       em := [(0x1000, 1)] }) = true := by decide

theorem test_armSwp_aborted_v46_4 : Case.holds
    ({ w := 0xE1020091, regs := [(1, 0xaaaa5555), (2, 0x1000), (0, 3)], mem := lowWords,
       f := fun s => { s with
       memsys := { s.memsys with
       answers := [okay, okay, okay, error] } }, er := [(0, 3), (14, 0x8008)], em := [(0x1000,
       0x89abcdef)], ep := some 0x10 }) = true := by decide

theorem test_armSwpb_v46_3 : Case.holds
    ({ w := 0xE1420091, regs := [(1, 0x11223344), (2, 0x1001)], mem := lowWords, er := [(0, 0xcd)],
       em := [(0x1000, 0x89ab44ef)] }) = true := by decide

theorem test_armSwi_v46_5 : Case.holds
    ({ w := 0xEF123456, cpsr := 0x20000010, er := [(14, 0x8004)], ec := some 0x20000093, ep := some 8,
       chk := fun s => s.spsrSvc = 0x20000010 }) = true := by decide

theorem test_armCdp_absent_v46_6 : Case.holds
    ({ w := 0xEE1327A4, er := [(14, 0x8004)], ec := some 0xdb, ep := some 4,
       chk := fun s => s.spsrUnd = 0xd3 }) = true := by decide

theorem test_armLdc_absent_v46_7 : Case.holds
    ({ w := 0xED912704, regs := [(1, 8)], er := [(14, 0x8004), (1, 8)], ep := some 4 }) = true := by decide

theorem test_armMcr_pid_v46_10 : Case.holds
    ({ w := 0xEE0D0F10, regs := [(0, 0x02000000)],
       chk := fun s => s.cp15.pid = 1 && fcse s.cp15.pid 0x1000 = 0x02001000 && fcse s.cp15.pid 0x02000000 = 0x02000000 }) = true := by decide

theorem test_armCdp14_undefined_v46_17 : Case.holds
    ({ w := 0xEE000F00, ep := some 4 }) = true := by decide

theorem test_armMrc_id_v46_8 : Case.holds
    ({ w := 0xEE100F10, er := [(0, 0x41807204)] }) = true := by decide

theorem test_armMrc_userMode_v46_9 : Case.holds
    ({ w := 0xEE100F10, cpsr := 0x10, ep := some 4, ec := some 0x9b }) = true := by decide

theorem test_thumbLslImm_v47_1 : Case.holds
    (thumb 0x07C8 [(1, 3)] [(0, 0x80000000)] (thumbFlags 1 0 1 0)) = true := by decide

theorem test_thumbLsrImm_zeroIs32_v47_2 : Case.holds
    (thumb 0x0808 [(1, 0x80000000)] [(0, 0)] (thumbFlags 0 1 1 0)) = true := by decide

theorem test_thumbAsrImm_zeroIs32_v47_3 : Case.holds
    (thumb 0x1008 [(1, 0x80000000)] [(0, 0xffffffff)] (thumbFlags 1 0 1 0)) = true := by decide

theorem test_thumbAddReg_v47_4 : Case.holds
    (thumb 0x1888 [(1, 0x7fffffff), (2, 1)] [(0, 0x80000000)] (thumbFlags 1 0 0 1)) = true := by decide

theorem test_thumbSubImm3_v47_5 : Case.holds
    (thumb 0x1FC8 [(1, 7)] [(0, 0)] (thumbFlags 0 1 1 0)) = true := by decide

theorem test_thumbMovImm_v47_6 : Case.holds
    (thumb 0x2000 [(0, 9)] [(0, 0)] (thumbFlags 0 1 1 1) (flags 0 0 1 1 0xf3)) = true := by decide

theorem test_thumbCmpImm_v47_7 : Case.holds
    (thumb 0x28FF [(0, 0)] [] (thumbFlags 1 0 0 0)) = true := by decide

theorem test_thumbAddImm8_v47_8 : Case.holds
    (thumb 0x30FF [(0, 0xffffff01)] [(0, 0)] (thumbFlags 0 1 1 0)) = true := by decide

theorem test_thumbSubImm8_v47_9 : Case.holds
    (thumb 0x3801 [(0, 0)] [(0, 0xffffffff)] (thumbFlags 1 0 0 0)) = true := by decide

theorem test_thumbAnd_v47_10 : Case.holds
    (thumb 0x4008 [(0, 0xf0), (1, 0x3c)] [(0, 0x30)] (thumbFlags 0 0 0 0)) = true := by decide

theorem test_thumbEor_v47_11 : Case.holds
    (thumb 0x4048 [(0, 0xaaaa), (1, 0xaaaa)] [(0, 0)] (thumbFlags 0 1 0 0)) = true := by decide

theorem test_thumbLslReg_v47_12 : Case.holds
    (thumb 0x4088 [(0, 1), (1, 32)] [(0, 0)] (thumbFlags 0 1 1 0)) = true := by decide

theorem test_thumbLsrReg_v47_13 : Case.holds
    (thumb 0x40C8 [(0, 0x80000000), (1, 33)] [(0,
       0)] (thumbFlags 0 1 0 0) (flags 0 0 1 0 0xf3)) = true := by decide

theorem test_thumbAsrReg_v47_14 : Case.holds
    (thumb 0x4108 [(0, 0x80000000), (1, 40)] [(0, 0xffffffff)] (thumbFlags 1 0 1 0)) = true := by decide

theorem test_thumbAdc_v47_15 : Case.holds
    (thumb 0x4148 [(0, 0xffffffff), (1, 0)] [(0,
       0)] (thumbFlags 0 1 1 0) (flags 0 0 1 0 0xf3)) = true := by decide

theorem test_thumbSbc_v47_16 : Case.holds
    (thumb 0x4188 [(0, 5), (1, 3)] [(0, 1)] (thumbFlags 0 0 1 0)) = true := by decide

theorem test_thumbRor_v47_17 : Case.holds
    (thumb 0x41C8 [(0, 0xf), (1, 4)] [(0, 0xf0000000)] (thumbFlags 1 0 1 0)) = true := by decide

theorem test_thumbRor_by32_v47_18 : Case.holds
    (thumb 0x41C8 [(0, 0x80000001), (1, 32)] [(0, 0x80000001)] (thumbFlags 1 0 1 0)) = true := by decide

theorem test_thumbTst_v47_19 : Case.holds
    (thumb 0x4208 [(0, 0x80000000), (1, 0x80000000)] [] (thumbFlags 1 0 0 0)) = true := by decide

theorem test_thumbNeg_overflow_v47_20 : Case.holds
    (thumb 0x4248 [(1, 0x80000000)] [(0, 0x80000000)] (thumbFlags 1 0 0 1)) = true := by decide

theorem test_thumbNeg_zero_v47_21 : Case.holds
    (thumb 0x4248 [(1, 0)] [(0, 0)] (thumbFlags 0 1 1 0)) = true := by decide

theorem test_thumbCmpReg_v47_22 : Case.holds
    (thumb 0x4288 [(0, 1), (1, 2)] [] (thumbFlags 1 0 0 0)) = true := by decide

theorem test_thumbCmn_v47_23 : Case.holds
    (thumb 0x42C8 [(0, 0xffffffff), (1, 1)] [] (thumbFlags 0 1 1 0)) = true := by decide

theorem test_thumbOrr_v47_24 : Case.holds
    (thumb 0x4308 [(0, 0xf), (1, 0xf0)] [(0, 0xff)] (thumbFlags 0 0 0 0)) = true := by decide

theorem test_thumbBic_v47_26 : Case.holds
    (thumb 0x4388 [(0, 0xff), (1, 0xf)] [(0, 0xf0)] (thumbFlags 0 0 0 0)) = true := by decide

theorem test_thumbMvn_v47_27 : Case.holds
    (thumb 0x43C8 [(1, 0)] [(0, 0xffffffff)] (thumbFlags 1 0 0 0)) = true := by decide

theorem test_thumbAddHi_v47_28 : Case.holds
    (thumb 0x4440 [(0, 1), (8, 0xffffffff)] [(0, 0)] (thumbFlags 0 0 0 0)) = true := by decide

theorem test_thumbAddHi_pc_v47_32 : Case.holds
    ({ thumb 0x4487 [(0, 0x11)] [] (thumbFlags 0 0 0 0) with ep := some 0x8014 }) = true := by decide

theorem test_thumbCmpHi_v47_29 : Case.holds
    (thumb 0x45C8 [(8, 0x1234), (9, 0x1234)] [] (thumbFlags 0 1 1 0)) = true := by decide

theorem test_thumbMovHi_v47_30 : Case.holds
    (thumb 0x4680 [(0, 0x55)] [(8, 0x55)] (thumbFlags 0 0 0 0)) = true := by decide

theorem test_thumbMovHi_pc_v47_33 : Case.holds
    ({ thumb 0x46F7 [(14, 0x8007)] [] (thumbFlags 0 0 0 0) with ep := some 0x8006 }) = true := by decide

theorem test_thumbBx_v47_34 : Case.holds
    ({ thumb 0x4708 [(1, 0x9000)] [] (some 0xd3) with ep := some 0x9000 }) = true := by decide

theorem test_thumbBx_misaligned_v47_36 : Case.holds
    ({ thumb 0x4778 [] [] with pc := 0x8002, refused := true }) = true := by decide

theorem test_thumbAddPc_v47_37 : Case.holds
    ({ thumb 0xA0FF [] [(0, 0x8400)] with pc := 0x8002 }) = true := by decide

theorem test_thumbAddSp_v47_38 : Case.holds
    (thumb 0xA802 [(13, 0x2000)] [(0, 0x2008)]) = true := by decide

theorem test_thumbIncSp_v47_39 : Case.holds
    (thumb 0xB07F [(13, 0x2000)] [(13, 0x21fc)]) = true := by decide

theorem test_thumbDecSp_v47_40 : Case.holds
    (thumb 0xB082 [(13, 0x2000)] [(13, 0x1ff8)]) = true := by decide

theorem test_thumbLdrPc_v48_1 : Case.holds
    ({ thumb 0x4801 [] [(0, 0x12345678)] with pc := 0x8002, mem := [(0x8008,
       0x12345678)] }) = true := by decide

theorem test_thumbStrReg_v48_3 : Case.holds
    ({ thumb 0x5088 [(1, 0x1000), (0, 7), (2, 4)] [] with mem := lowWords, em := [(0x1004,
       7)] }) = true := by decide

theorem test_thumbLdrbReg_v48_4 : Case.holds
    ({ thumb 0x5C88 [(1, 0x1000), (2, 2)] [(0, 0xab)] with mem := lowWords }) = true := by decide

theorem test_thumbLdrsbReg_v48_5 : Case.holds
    ({ thumb 0x5688 [(1, 0x1000), (2, 0)] [(0, 0xffffffef)] with mem := lowWords }) = true := by decide

theorem test_thumbLdrhReg_v48_6 : Case.holds
    ({ thumb 0x5A88 [(1, 0x1000), (2, 0)] [(0, 0xcdef)] with mem := lowWords }) = true := by decide

theorem test_thumbLdrshReg_v48_7 : Case.holds
    ({ thumb 0x5E88 [(1, 0x1000), (2, 2)] [(0, 0xffff89ab)] with mem := lowWords }) = true := by decide

theorem test_thumbStrImm_v48_8 : Case.holds
    ({ thumb 0x67C8 [(1, 0x1000), (0, 9)] [] with em := [(0x107c, 9)] }) = true := by decide

theorem test_thumbLdrImm_v48_9 : Case.holds
    ({ thumb 0x6848 [(1, 0x1000)] [(0, 0x22)] with mem := fourWords }) = true := by decide

theorem test_thumbLdrImm_externalAbort_v48_31 : Case.holds
    ({ thumb 0x6848 [(1, 0x1000), (0, 4)] [(0, 4), (14, 0x800a)] (some 0xd7) with
       pc := 0x8002, f := (fun s => { s with
       memsys := { s.memsys with
       answers := [okay, okay, error] } }), ep := some 0x10,
       chk := fun s => s.spsrAbt = 0xf3 }) = true := by decide

theorem test_thumbStrbImm_v48_10 : Case.holds
    ({ thumb 0x77C8 [(1, 0x1000), (0, 0xff)] [] with em := [(0x101c, 0xff000000)] }) = true := by decide

theorem test_thumbLdrbImm_v48_11 : Case.holds
    ({ thumb 0x7848 [(1, 0x1000)] [(0, 0xcd)] with mem := lowWords }) = true := by decide

theorem test_thumbStrhImm_v48_12 : Case.holds
    ({ thumb 0x87C8 [(1, 0x1000), (0, 0xbeef)] [] with em := [(0x103c, 0xbeef0000)] }) = true := by decide

theorem test_thumbLdrhImm_v48_13 : Case.holds
    ({ thumb 0x8848 [(1, 0x1000)] [(0, 0x89ab)] with mem := lowWords }) = true := by decide

theorem test_thumbStrSp_v48_14 : Case.holds
    ({ thumb 0x90FF [(13, 0x2000), (0, 5)] [] with em := [(0x23fc, 5)] }) = true := by decide

theorem test_thumbLdrSp_v48_15 : Case.holds
    ({ thumb 0x9801 [(13, 0x2000)] [(0, 6)] with mem := [(0x2004, 6)] }) = true := by decide

theorem test_thumbPush_v48_16 : Case.holds
    ({ thumb 0xB511 [(13, 0x2000), (0, 1), (4, 4), (14, 0x8007)] [(13, 0x1ff4)] with
       em := [(0x1ff4, 1), (0x1ff8, 4), (0x1ffc, 0x8007)] }) = true := by decide

theorem test_thumbPop_v48_17 : Case.holds
    ({ thumb 0xBD11 [(13, 0x1ff4)] [(0, 1), (4, 4), (13, 0x2000)] (some 0xf3) with
       mem := [(0x1ff4, 1), (0x1ff8, 4), (0x1ffc, 0x8007)], ep := some 0x8006 }) = true := by decide

theorem test_thumbStmia_v48_19 : Case.holds
    ({ thumb 0xC006 [(0, 0x1000), (1, 0xa), (2, 0xb)] [(0, 0x1008)] with
       em := [(0x1000, 0xa), (0x1004, 0xb)] }) = true := by decide

theorem test_thumbLdmia_v48_20 : Case.holds
    ({ thumb 0xC806 [(0, 0x1000)] [(0, 0x1008), (1, 0x11), (2,
       0x22)] with mem := fourWords }) = true := by decide

theorem test_thumbBCond_taken_v48_21 : Case.holds
    ({ thumb 0xD006 [] [] none (flags 0 1 0 0 0xf3) with ep := some 0x8010 }) = true := by decide

theorem test_thumbBCond_backwards_v48_23 : Case.holds
    ({ thumb 0xD1F6 [] [] with pc := 0x8010, ep := some 0x8000 }) = true := by decide

theorem test_thumbSwi_v48_29 : Case.holds
    ({ thumb 0xDFFF [] [(14, 0x8004)] (some 0x93) 0x30 with
       pc := 0x8002, ep := some 8, chk := fun s => s.spsrSvc = 0x30 }) = true := by decide

theorem test_thumbUndefDe_v48_30 : Case.holds
    ({ thumb 0xDE00 [] [(14, 0x8004)] (some 0x9b) 0x30 with
       pc := 0x8002, ep := some 4, chk := fun s => s.spsrUnd = 0x30 }) = true := by decide

theorem test_thumbB_self_v48_26 : Case.holds
    ({ thumb 0xE7FE [] [] with ep := some 0x8000 }) = true := by decide

theorem test_thumbBlHigh_v48_28a : Case.holds
    (thumb 0xF7FE [] [(14, 0x6004)]) = true := by decide

theorem test_thumbBlLow_v48_28b : Case.holds
    ({ thumb 0xFFFE [(14, 0x6004)] [(14, 0x8005)] with pc := 0x8002, ep := some 0x7000 }) = true := by decide

theorem test_armSmull_r274 : Case.holds
    ({ w := 0xE0C10392, regs := [(2, 0x80000000), (3, 2)], er := [(0, 0), (1, 0xffffffff)],
       ec := some 0xd3 }) = true := by decide

theorem test_armMul_r270 : Case.holds
    ({ w := 0xE0000291, regs := [(1, 0xffffffff), (2, 2)], er := [(0, 0xfffffffe)],
       ec := some 0xd3 }) = true := by decide

theorem test_armLdrt_r305 : Case.holds
    ({ w := 0xE4B10004, cpsr := 0x10, regs := [(1, 0x1000)], mem := lowWords, er := [(0, 0x89abcdef), (1,
       0x1004)] }) = true := by decide

theorem test_armStrt_r306 : Case.holds
    ({ w := 0xE4A10004, regs := [(1, 0x1000), (0, 7)], er := [(1, 0x1004)], em := [(0x1000,
       7)] }) = true := by decide

theorem test_armLdrbt_r307 : Case.holds
    ({ w := 0xE4F10001, regs := [(1, 0x1001)], mem := lowWords, er := [(0, 0xcd), (1,
       0x1002)] }) = true := by decide

theorem test_armStrbt_r308 : Case.holds
    ({ w := 0xE4E10001, regs := [(1, 0x1001), (0, 7)], mem := lowWords, er := [(1, 0x1002)],
       em := [(0x1000, 0x89ab07ef)] }) = true := by decide

theorem test_armStmib_r331 : Case.holds
    ({ w := 0xE9800006, regs := [(0, 0x1000), (1, 7), (2, 8)], er := [(0, 0x1000)], em := [(0x1000, 0),
       (0x1004, 7), (0x1008, 8)] }) = true := by decide

theorem test_armStmda_r331 : Case.holds
    ({ w := 0xE8200006, regs := [(0, 0x1008), (1, 7), (2, 8)], er := [(0, 0x1000)], em := [(0x1004, 7),
       (0x1008, 8)] }) = true := by decide

theorem test_armCdp_ready_r359 : Case.holds
    ({ w := 0xEE1327A4, f := coproc7 0 [],
       chk := fun s => s.calls = [.dataOp 7 1 2 3 4 5] && s.coproc = [] }) = true := by decide

theorem test_armLdc_ready_r360 : Case.holds
    ({ w := 0xECB12704, regs := [(1, 0x1000)], mem := lowWords, f := coproc7 0 [0], er := [(1, 0x1010)],
       chk := fun s => s.calls = [.loadWord 7 2 false none 0 0x89abcdef,
       .loadWord 7 2 false none 1 0x11111111] }) = true := by decide

theorem test_armStc_ready_r361 : Case.holds
    ({ w := 0xED612701, regs := [(1, 0x1004)], f := coproc7 5 [6], er := [(1, 0x1000)], em := [(0x1000, 5),
       (0x1004, 6)] }) = true := by decide

theorem test_armStc_absent_r361 : Case.holds
    ({ w := 0xED812704, ep := some 4, ec := some 0xdb, er := [(14, 0x8004)] }) = true := by decide

theorem test_armMcr_ready_r362 : Case.holds
    ({ w := 0xEE080737, regs := [(0, 9)], f := coproc7 0 [],
       chk := fun s => s.calls = [.write 7 0 8 7 1 9] }) = true := by decide

theorem test_armUndefMedia_r196 : Case.holds
    ({ w := 0xE7F000F0, ep := some 4, ec := some 0xdb, er := [(14, 0x8004)] }) = true := by decide

theorem test_armUndefMsr_r196 : Case.holds
    ({ w := 0xE3400001, ep := some 4, ec := some 0xdb, er := [(14, 0x8004)] }) = true := by decide

theorem test_thumbSubReg_r396 : Case.holds
    (thumb 0x1A88 [(1, 5), (2, 7)] [(0, 0xfffffffe)] (thumbFlags 1 0 0 0)) = true := by decide

theorem test_thumbAddImm3_r397 : Case.holds
    (thumb 0x1DC8 [(1, 0xfffffff9)] [(0, 0)] (thumbFlags 0 1 1 0)) = true := by decide

theorem test_thumbLdrReg_r454 : Case.holds
    ({ thumb 0x5888 [(1, 0x1000), (2, 4)] [(0, 0x11111111)] with mem := lowWords }) = true := by decide

theorem test_thumbStrbReg_r453 : Case.holds
    ({ thumb 0x5488 [(1, 0x1000), (2, 1), (0, 0x1234)] [] with em := [(0x1000, 0x3400)] }) = true := by decide

theorem test_thumbStrhReg_r456 : Case.holds
    ({ thumb 0x5288 [(1, 0x1000), (2, 2), (0, 0x51234)] [] with em := [(0x1000,
       0x12340000)] }) = true := by decide

theorem test_thumbUndefB_r485 : Case.holds
    ({ thumb 0xB100 [] [(14, 0x8002)] (some 0x9b) 0x30 with
       ep := some 4, chk := fun s => s.spsrUnd = 0x30 }) = true := by decide

theorem test_thumbUndefE8_r485 : Case.holds
    ({ thumb 0xE800 [] [(14, 0x8002)] (some 0x9b) 0x30 with ep := some 4 }) = true := by decide

/-- Vectors 41.2 and 47.25, whose C is open: the registers. -/
theorem test_multiply_setsFlags :
    (∃ t, exec (.armMul .al true 0 2 1) (machine 0x8000 0xd3 [(1, 0xffffffff), (2, 2)] [] false false) = .next t ∧
      t.regs[0] = 0xfffffffe) ∧
    ∃ t, exec (.thumbMul 1 0) (machine 0x8000 0xf3 [(0, 3), (1, 0x80000001)] [] false false) = .next t ∧
      t.regs[0] = 0x80000003 := ⟨⟨_, rfl, by decide⟩, ⟨_, rfl, by decide⟩⟩

/-- Vector 42.1, whose bits [27:8] are open. -/
theorem test_armMrs_v42_1 :
    ∃ t, exec (.armMrs .al false 0) (machine 0x8000 0x600000d3 [] [] false false) = .next t ∧
      t.regs[0].extractLsb' 28 4 = 6 ∧ t.regs[0].extractLsb' 0 8 = 0xd3 := by
  refine ⟨_, rfl, ?_, ?_⟩
  · show (readPsr _ 0x600000d3).extractLsb' 28 4 = 6
    simp only [readPsr, extract_append_high _ _ 28 4 (show 8 ≤ 28 by decide),
      extract_append_high _ _ 20 4 (show 20 ≤ 20 by decide)]
    decide
  · show (readPsr _ 0x600000d3).extractLsb' 0 8 = 0xd3
    simp only [readPsr, extract_append_low _ _ 0 8 (show 0 + 8 ≤ 8 by decide)]
    decide

/-! ## Memory system, exceptions, debug: one step each -/

/-- The tables of vectors 20.9 to 20.21: sections with domain 0 (full access) and 1, a fault, a cachable
section, a coarse and a fine table, a section with AP = 0. -/
def tables : List (Word × Word) :=
  [(0x4000, 0xc12), (0x4004, 0x200432), (0x4008, 0), (0x400c, 0x200c1e), (0x4010, 0x5011), (0x4014, 0x6013),
    (0x4018, 0x300012), (0x500c, 0x123cf2), (0x5010, 0), (0x5014, 0x789433), (0x5060, 0x450ff1),
    (0x600c, 0x789433), (0x6010, 0), (0x6014, 0x123cf2), (0x6018, 0x450ff1)]

/-- A machine with the MMU on, the tables at 0x4000, domain 0 a client, domain 1 without access. -/
def translating (cpsr : Word) (regs : List (Reg × Word)) (control : Word) : State :=
  { machine 0x8000 cpsr regs tables false false with
    cp15 := { Cp15.reset with control := control, ttb := 1, dacr := 1 } }

/-- Vectors 20.10, 20.12, 20.15, 20.16, 20.18, 20.19: section, domain fault, small page, permission by S,
large page, tiny page. -/
theorem test_translation :
    (translating 0xd3 [] 0x71).Reaches .read .word true 0x000abc ⟨0xabc, false, false, true,
      some (sectionEntry 0xc12 0xabc)⟩ ∧
    (translating 0xd3 [] 0x71).Aborts .read .word true 0x100004 ⟨0b1001, 1, 0x100004, false⟩ ∧
    (translating 0xd3 [] 0x71).Aborts .read .word true 0x403abc ⟨0b1111, 0, 0x403abc, false⟩ ∧
    ((translating 0xd3 [] 0x171).memsys.resolve false (translating 0xd3 [] 0x171).cp15 .read .word true
      0x403000).1 = .ok ⟨0x123000, false, false, true, some (pageEntry .kb4 .kb1 0 0x123cf2 0x403000)⟩ ∧
    (translating 0xd3 [] 0x71).Aborts .read .word true 0x404000 ⟨0b0111, 0, 0x404000, false⟩ := by
  unfold State.Reaches State.Aborts
  decide

/-! ## Hypotheses that are met

For each statement of Certificates/Slice0/Obligations.lean with hypotheses, a state and operands that meet
them together, for each of its clauses. -/

/-- Supervisor mode, ARM state, all flags clear. -/
def svc (regs : List (Reg × Word) := []) (mem : List (Word × Word) := []) : State :=
  machine 0x8000 0xd3 regs mem false false

/-- Supervisor mode, Thumb state. -/
def svcThumb (regs : List (Reg × Word) := []) (mem : List (Word × Word) := []) : State :=
  machine 0x8002 0xf3 regs mem false false

/-- User mode, ARM state. -/
def usr : State := machine 0x8000 0x10 [] [] false false

/-- None of the instructions breaks a restriction. -/
def sound (l : List Instr) : Prop := ∀ i ∈ l, i.broken = none

theorem calm_of_empty (ms : MemSys) (hr : ms.answers = []) (hs : ms.slaves = []) : ms.Calm :=
  ⟨by rw [hr]; simp, by rw [hr]; simp, hs⟩

theorem quiet_machine (s : State) (hm : s.memsys.mem.wf = true) (hr : s.memsys.answers = [])
    (hs : s.memsys.slaves = []) (hd : s.pins.dbgen = false) (ha : s.dbg.ack = false) : s.Quiet :=
  ⟨hm, calm_of_empty _ hr hs, hd, ha⟩

theorem quiet_svc : (svc [(1, 0x1000)] lowWords).Quiet :=
  quiet_machine _ (by decide) rfl rfl rfl rfl

theorem flat_svc : (svc [(1, 0x1000)] lowWords).Flat := ⟨by decide, by decide, rfl⟩

theorem quiet_thumb : (svcThumb [(1, 0x1000)] lowWords).Quiet :=
  quiet_machine _ (by decide) rfl rfl rfl rfl

theorem flat_thumb : (svcThumb [(1, 0x1000)] lowWords).Flat := ⟨by decide, by decide, rfl⟩

theorem quiet_translating : (translating 0xd3 [(1, 0x100004)] 0x71).Quiet :=
  quiet_machine _ (by decide) rfl rfl rfl rfl

theorem witness_DecodeIffEncode : (Instr.armMul .al true 0 2 1).encodable = true ∧
    encode (.armMul .al true 0 2 1) = .arm 0xE0100291 := by decide

/-- With no User-bank transfer before, with one before an instruction that names no banked register, and with
one before MOV r13, which is the hazard. -/
theorem witness_StepRunsDecodedInstruction :
    (∀ b : Bool, let s := { (svc).withFetchWord 32 0xE3A00F41 with userBank := b }
      s.schedule = [] ∧ s.stuck = none ∧ s.dbg.ack = false ∧ s.pins.dbgen = false ∧ s.offTop = false ∧
      s.interrupt.isNone = true ∧ s.prefetch.pipe = ⟨.ok 0xE3A00F41, false⟩ :: s.prefetch.pipe.tail ∧
      decode (s.code 0xE3A00F41) = .ok (.armMov .al false 0 (.imm 15 0x41)) ∧
      (Instr.armMov .al false 0 (.imm 15 0x41)).regs = [0]) ∧
    let s := { (svc).withFetchWord 32 0xE3A0D000 with userBank := true }
    s.interrupt.isNone = true ∧ s.prefetch.pipe = ⟨.ok 0xE3A0D000, false⟩ :: s.prefetch.pipe.tail ∧
    decode (s.code 0xE3A0D000) = .ok (.armMov .al false 13 (.imm 0 0)) ∧ s.wordPasses 0xE3A0D000 = true ∧
    (Instr.armMov .al false 13 (.imm 0 0)).regs = [13] ∧ s.mode ≠ .fiq := by decide

theorem witness_FetchReadsProgramCounter :
    (svc [(1, 0x1000)] lowWords).pipe = [] ∧ (svc [(1, 0x1000)] lowWords).Quiet ∧
    (svc [(1, 0x1000)] lowWords).Reaches .fetch .word true 0x8000 ⟨0x8000, false, false, true, none⟩ ∧
    (translating 0xd3 [(1, 0x100004)] 0x71).Quiet ∧
    (translating 0xd3 [(1, 0x100004)] 0x71).Reaches .fetch .word true 0x8000
      ⟨0x8000, false, false, true, some (sectionEntry 0xc12 0x8000)⟩ :=
  ⟨rfl, quiet_svc, by unfold State.Reaches; decide, quiet_translating, by unfold State.Reaches; decide⟩

theorem witness_ConditionCodes : (0xF0000000 : Word).extractLsb' 28 4 = 15 := by decide

theorem witness_FailedConditionDoesNothing :
    Instr.cond (.armSwi .eq 0) = some .eq ∧ (svc).passes .eq = false ∧
    Instr.cond (.thumbBCond .mi 0) = some .mi ∧ (svcThumb).passes .mi = false := by decide

theorem witness_RestrictedRegistersRefused :
    (svc).passes .al = true ∧ Instr.cond (.armMul .al false 15 1 2) = some .al ∧
    (Instr.armMul .al false 15 1 2).broken = some .r15Operand ∧ Instr.cond (.thumbPush false 0) = none ∧
    (Instr.thumbPush false 0).broken = some .emptyList := by decide

/-- The clauses' bounds, with the results R186 gives there. -/
theorem witness_ShiftOperations :
    [lsl 0x80000001 0 true, lsl 0x80000001 1 false, lsl 0x80000001 31 false, lsl 0x80000001 32 false,
      lsl 0x80000001 33 true, lsr 0x80000001 1 false, lsr 0x80000001 31 true, lsr 0x80000001 32 false,
      lsr 0x80000001 33 true, asr 0x80000001 1 false, asr 0x80000001 31 true, asr 0x80000001 32 false,
      asr 0x80000001 255 false, ror 0x80000001 1 false, ror 0x80000001 32 false, ror 0x7fffffff 64 true,
      ror 0x80000001 33 false, rrx 0x80000001 true] =
    [⟨0x80000001, true⟩, ⟨2, true⟩, ⟨0x80000000, false⟩, ⟨0, true⟩, ⟨0, false⟩, ⟨0x40000000, true⟩, ⟨1, false⟩,
      ⟨0, true⟩, ⟨0, false⟩, ⟨0xc0000000, true⟩, ⟨0xffffffff, false⟩, ⟨0xffffffff, true⟩, ⟨0xffffffff, true⟩,
      ⟨0xc0000000, true⟩, ⟨0x80000001, true⟩, ⟨0x7fffffff, false⟩, ⟨0xc0000000, true⟩,
      ⟨0xc0000000, true⟩] := by decide

/-- R185 to R188 at 0 and above. -/
theorem witness_OperandTwoForms :
    (svc [(1, 0x80000001), (2, 0x120)]).operand2 (.imm 0 0x41) = ⟨0x41, false⟩ ∧
    (svc [(1, 0x80000001), (2, 0x120)]).operand2 (.imm 15 0x41) = ⟨0x104, false⟩ ∧
    (svc [(1, 0x80000001), (2, 0x120)]).operand2 (.shiftImm .lsr 0 1) = ⟨0, true⟩ ∧
    (svc [(1, 0x80000001), (2, 0x120)]).operand2 (.shiftImm .ror 0 1) = ⟨0x40000000, true⟩ ∧
    (svc [(1, 0x80000001), (2, 0x120)]).operand2 (.shiftReg .lsl 2 1) = ⟨0, true⟩ := by decide

theorem witness_ArmLogicalResult : (svc).passes .al = true ∧ (0 : Reg) ≠ 15 ∧
    sound [.armAnd .al true 1 0 (.imm 0 1), .armEor .al true 1 0 (.imm 0 1), .armOrr .al true 1 0 (.imm 0 1),
      .armBic .al true 1 0 (.imm 0 1), .armMov .al true 0 (.imm 0 1), .armMvn .al true 0 (.imm 0 1)] := by
  unfold sound
  decide

theorem witness_ArmArithmeticResult : (svc).passes .al = true ∧ (0 : Reg) ≠ 15 ∧
    sound [.armAdd .al true 1 0 (.shiftReg .lsl 2 3), .armAdc .al true 1 0 (.shiftReg .lsl 2 3),
      .armSub .al true 1 0 (.shiftReg .lsl 2 3), .armSbc .al true 1 0 (.shiftReg .lsl 2 3),
      .armRsb .al true 1 0 (.shiftReg .lsl 2 3), .armRsc .al true 1 0 (.shiftReg .lsl 2 3)] := by
  unfold sound
  decide

theorem witness_ArmCompareFlags : (svc).passes .ne = true ∧
    sound [.armTst .ne 1 (.imm 0 1), .armTeq .ne 1 (.imm 0 1), .armCmp .ne 1 (.imm 0 1),
      .armCmn .ne 1 (.imm 0 1)] := by
  unfold sound
  decide

/-- Each case of the second clause: no SPSR, an SPSR with a legal mode, one without. -/
theorem witness_ArmResultToPc : (svc).passes .al = true ∧
    (Instr.armMov .al false 15 (.shiftImm .lsl 0 14), (svc).reg 14) ∈
      (svc).dataProcResults .al false 0 15 (.shiftImm .lsl 0 14) ∧
    sound [.armMov .al false 15 (.shiftImm .lsl 0 14), .armMov .al true 15 (.shiftImm .lsl 0 14)] ∧
    usr.passes .al = true ∧ usr.spsrOf usr.mode = none ∧
    ({ svc with spsrSvc := 0x30 }).spsrOf .svc = some 0x30 ∧ legalMode 0x30 = true ∧
    (svc).spsrOf (svc).mode = some 0 ∧ legalMode 0 = false := by
  unfold sound
  decide

theorem witness_MultiplyResult : (svc).passes .al = true ∧
    sound [.armMul .al true 0 1 2, .armMla .al true 0 3 1 2, .thumbMul 1 0] := by
  unfold sound
  decide

theorem witness_LongMultiplyResult : (svc).passes .al = true ∧
    sound [.armUmull .al true 0 1 2 3, .armUmlal .al true 0 1 2 3, .armSmull .al true 0 1 2 3,
      .armSmlal .al true 0 1 2 3] := by
  unfold sound
  decide

theorem witness_MrsReadsStatus : (svc).passes .al = true ∧ (0 : Reg) ≠ 15 ∧
    (svc).spsrOf (svc).mode = some 0 ∧ usr.passes .al = true ∧ usr.spsrOf usr.mode = none := by decide

/-- A change of T, an illegal mode, a legal one, and the flags in User mode. -/
theorem witness_MsrWritesCpsr : (svc).passes .al = true ∧ (svc).dbg.ack = false ∧
    legalMode (svc).cpsr = true ∧ sound [.armMsrReg .al false 1 0, .armMsrImm .al false 1 0 0x10] ∧
    (svc).privileged = true ∧ (0x33 : Word).getLsbD 5 ≠ (svc).cpsr.getLsbD 5 ∧
    legalMode 0 = false ∧ legalMode 0x10 = true ∧ usr.privileged = false ∧ legalMode usr.cpsr = true := by
  unfold sound
  decide

theorem witness_MsrWritesSpsr : (svc).passes .al = true ∧
    sound [.armMsrReg .al true 15 0, .armMsrImm .al true 15 0 0x10] ∧ (svc).spsrOf (svc).mode = some 0 ∧
    usr.passes .al = true ∧ usr.spsrOf usr.mode = none := by
  unfold sound
  decide

/-- A stuck machine with no event, with an event that a step takes, with the reset input. -/
theorem witness_StuckUntilReset :
    let s := { svc with stuck := some .illegalMode }
    s.stuck = some .illegalMode ∧ s.schedule = [] ∧
    (∃ t, step { s with schedule := [.busGrant] } = .next t) ∧
    { s with schedule := [.reset true none 0 0] }.schedule = [.reset true none 0 0] :=
  ⟨rfl, rfl, ⟨_, rfl⟩, rfl⟩

theorem witness_ArmBranch : (svc).passes .al = true ∧ (svc).thumb = false ∧
    alignPc false (svc).pc = (svc).pc := by decide

/-- Operands with bits [1:0] = 10, 00, 01 and 11; a Thumb PC that is no multiple of four, in debug state. -/
theorem witness_BranchExchange : (svc).passes .al = true ∧ (1 : Reg) ≠ 15 ∧
    ([0x9002, 0x9000, 0x9001, 0x9003].map fun v : Word => ((svc [(1, v)]).reg 1).extractLsb' 0 2) =
      [2, 0, 1, 3] ∧
    { svcThumb with pc := 0x8002, dbg := { svcThumb.dbg with ack := true } }.reg 15 = 0x8006 := by decide

theorem witness_ThumbBranch : (svcThumb).thumb = true ∧ alignPc true (svcThumb).pc = (svcThumb).pc ∧
    (svcThumb).passes .ne = true ∧ (svcThumb).passes .eq = false ∧ Cond.ofBits 1 = some .ne := by decide

theorem witness_ThumbBranchLink : (svcThumb).thumb = true ∧
    alignPc true (svcThumb).pc = (svcThumb).pc := by decide

theorem witness_SoftwareInterruptEntry : (svc).passes .al = true := by decide

theorem witness_UndefinedInstructionEntry : usr.passes .al = true := by decide

/-- FIQ alone, IRQ alone, both, in User mode with both unmasked. -/
theorem witness_InterruptEntry : ∀ f i : Bool,
    let s := { usr with pins := { usr.pins with fiq := f, irq := i } }
    s.schedule = [] ∧ s.stuck = none ∧ s.dbg.ack = false ∧ s.pins.dbgen = false ∧ s.offTop = false ∧
    (s.pins.fiq && !s.cpsr.getLsbD 6) = f ∧ (s.pins.irq && !s.cpsr.getLsbD 7) = i := by decide

theorem witness_PrefetchAbortEntry :
    let s := { translating 0xd3 [] 0x71 with pc := 0x100000 }
    s.schedule = [] ∧ s.stuck = none ∧ s.dbg.ack = false ∧ s.pins.dbgen = false ∧ s.offTop = false ∧
    s.interrupt.isNone = true ∧
    s.prefetch.pipe = ⟨.abort ⟨0b1001, 1, 0x100000, false⟩, false⟩ :: s.prefetch.pipe.tail := by decide

theorem witness_ReturnRestoresProgram : legalMode (svc).cpsr = true ∧
    alignPc (svc).thumb (svc).pc = (svc).pc ∧ legalMode (svcThumb).cpsr = true ∧
    alignPc (svcThumb).thumb (svcThumb).pc = (svcThumb).pc := by decide

/-- LDR r0, [r1], #4, LDRH of Thumb state, and LDR of r15. -/
theorem witness_LoadsReadMemory :
    let s := svc [(1, 0x1000)] lowWords
    let t := svcThumb [(1, 0x1000)] lowWords
    s.Quiet ∧ s.IsLoad ⟨.armLdr .al .post true 1 0 (.imm 4), .word, 0x1000, some (1, 0x1004), true, 0,
      rotatedWord 0x1000⟩ ∧ s.Reaches .read .word true 0x1000 ⟨0x1000, false, false, true, none⟩ ∧
    s.IsLoad ⟨.armLdr .al .offset true 1 15 (.imm 4), .word, 0x1004, none, true, 15, rotatedWord 0x1004⟩ ∧
    s.Reaches .read .word true 0x1004 ⟨0x1004, false, false, true, none⟩ ∧
    t.Quiet ∧ t.IsLoad ⟨.thumbLdrhImm 1 1 0, .half, 0x1002, none, true, 0, fun w => w⟩ ∧
    t.Reaches .read .half true 0x1002 ⟨0x1002, false, false, true, none⟩ := by
  refine ⟨quiet_svc, ⟨by decide, .inl ⟨.al, .post, true, 1, 0, .imm 4, by decide, ?_⟩⟩,
    by unfold State.Reaches; decide, ⟨by decide, .inl ⟨.al, .offset, true, 1, 15, .imm 4, by decide, ?_⟩⟩,
    by unfold State.Reaches; decide, quiet_thumb,
    ⟨by decide, .inr (.inr ⟨0, 1, 0, 1, 0, ?_⟩)⟩, by unfold State.Reaches; decide⟩
  · exact .head _
  · exact .head _
  · iterate 8 apply List.Mem.tail
    exact .head _

/-- STR r0, [r1, #4]!, STRH of Thumb state, and STRH at an odd address. -/
theorem witness_StoresWriteMemory :
    let s := svc [(1, 0x1000)] lowWords
    let t := svcThumb [(1, 0x1000)] lowWords
    s.Quiet ∧ s.IsStore ⟨.armStr .al .pre true 1 0 (.imm 4), .word, 0x1004, some (1, 0x1004), true, 0, id⟩ ∧
    s.Reaches .write .word true 0x1004 ⟨0x1004, false, false, true, none⟩ ∧
    t.Quiet ∧ t.IsStore ⟨.thumbStrhImm 1 1 0, .half, 0x1002, none, true, 0, id⟩ ∧
    t.Reaches .write .half true 0x1002 ⟨0x1002, false, false, true, none⟩ ∧
    s.IsStore ⟨.armStrh .al .offset true 1 0 (.imm 1), .half, 0x1001, none, true, 0, id⟩ ∧
    Transfer.oddHalf ⟨.armStrh .al .offset true 1 0 (.imm 1), .half, 0x1001, none, true, 0, id⟩ = true ∧
    s.cp15.alignOn = false ∧ ¬ (s.dbg.ack = true ∧ s.dbg.sysSpeed = false) ∧
    (let d := { s with dbg := { s.dbg with ack := true } };
      d.IsStore ⟨.armStrh .al .offset true 1 0 (.imm 1), .half, 0x1001, none, true, 0, id⟩ ∧ d.dbg.ack = true ∧
        d.dbg.sysSpeed = false) := by
  refine ⟨quiet_svc, ⟨by decide, .inl ⟨.al, .pre, true, 1, 0, .imm 4, by decide, .head _⟩⟩,
    by unfold State.Reaches; decide, quiet_thumb, ⟨by decide, .inr (.inr ⟨0, 1, 0, 1, 0, ?_⟩)⟩,
    by unfold State.Reaches; decide, ⟨by decide, .inr (.inl ⟨.al, .offset, true, 1, 0, .imm 1, by decide, .head _⟩)⟩,
    by decide, by decide, by decide,
    ⟨by decide, .inr (.inl ⟨.al, .offset, true, 1, 0, .imm 1, by decide, .head _⟩)⟩, rfl, rfl⟩
  iterate 5 apply List.Mem.tail
  exact .head _

/-- A bus that answers the first transfer with RETRY and then ERROR. -/
def svcError : State :=
  let s := svc [(1, 0x1000)] lowWords
  { s with memsys := { s.memsys with answers := [⟨[], .retry, 0⟩, error] } }

/-- A bus that answers the first transfer after a section's walk with ERROR. -/
def translatingError : State :=
  let s := translating 0xd3 [] 0x71
  { s with memsys := { s.memsys with answers := [okay, error] } }

/-- A load and a store in a domain without access; a load and a store that draw ERROR, with the MMU off and
on; STMIA, STMIA with ^ and PUSH, and LDC and STC, in a domain without access. -/
theorem witness_DataAbortOfTransfer :
    (let s := translating 0xd3 [(1, 0x100004)] 0x71;
      s.Quiet ∧ s.IsLoad ⟨.armLdr .al .offset true 1 0 (.imm 0), .word, 0x100004, none, true, 0,
        rotatedWord 0x100004⟩ ∧ s.Aborts .read .word true 0x100004 ⟨0b1001, 1, 0x100004, false⟩ ∧
      s.IsStore ⟨.armStr .al .offset true 1 0 (.imm 0), .word, 0x100004, none, true, 0, id⟩ ∧
      s.Aborts .write .word true 0x100004 ⟨0b1001, 1, 0x100004, false⟩ ∧
      Transfer.oddHalf ⟨.armStr .al .offset true 1 0 (.imm 0), .word, 0x100004, none, true, 0, id⟩ = false) ∧
    (∀ k ∈ [Access.read, .write], (svcError).DrawsError k .word true 0x1000 ⟨0x1000, false, false, true, none⟩
      svcError.memsys) ∧ (svcError).cp15.cacheOn = false ∧ (svcError).cp15.bufferOn = false ∧
    (∃ r m, translatingError.DrawsError .read .word true 0xabc r m ∧ r.entry.isSome = true) ∧
    (let s := translating 0xd3 [(1, 0x100000)] 0x71;
      (∀ sf : Bool, (s.storeWords .blockWrite s.privileged ([1, 2].map (s.blockValue sf)) 0x100000 .empty).1 =
        ⟨[], some ⟨0b1001, 1, 0x100000, false⟩, none⟩) ∧
      (∀ sf : Bool, s.IsBlockStore ⟨.armStmia .al sf false 1 6, 0x100000, 1, none, [1, 2].map (s.blockValue sf)⟩) ∧
      ∀ f : Bool, let x := coproc7 5 [6] s
        x.platform.extCoprocs.getLsbD (7 : BitVec 4).toNat = true ∧
        (if f then (x.loadCoproc 7 2 false none 2 0 0x100000).1
          else (x.storeCoproc 7 2 false none [5, 6] 0 0x100000).1) = .abort ⟨0b1001, 1, 0x100000, false⟩) ∧
    let s := { translating 0xd3 [(13, 0x100008)] 0x71 with cpsr := 0xf3 }
    s.IsBlockStore ⟨.thumbPush false 6, 0x100000, 13, some 0x100000, [1, 2].map s.reg⟩ := by
  refine ⟨⟨quiet_translating, ⟨by decide, .inl ⟨.al, .offset, true, 1, 0, .imm 0, by decide, .head _⟩⟩,
    by unfold State.Aborts; decide, ⟨by decide, .inl ⟨.al, .offset, true, 1, 0, .imm 0, by decide, .head _⟩⟩,
    by unfold State.Aborts; decide, by decide⟩, ?_, by decide, by decide,
    ⟨_, _, ⟨rfl, .inr ⟨error, rfl, rfl⟩, by decide⟩, rfl⟩, ⟨by decide, ?_, by decide⟩, ?_⟩
  · intro k hk
    simp only [List.mem_cons, List.not_mem_nil, or_false] at hk
    rcases hk with rfl | rfl <;>
      exact ⟨by decide, .inr ⟨error, rfl, rfl⟩, by decide⟩
  · intro sf
    refine ⟨by decide +revert, .inl ⟨.al, sf, false, 1, 6, by decide, fun _ => by decide, ?_⟩⟩
    exact .head _
  · exact ⟨by decide, .inr ⟨false, 0, 6, .head _⟩⟩

/-- A set with a word at 2 modulo 4 and a halfword at an odd address; A clear. -/
theorem witness_AlignmentCheck :
    (machine 0x8000 0xd3 [] [] false true).cp15.alignOn = true ∧ Access.read ≠ .fetch ∧
    (0x1002 : Word).toNat % 4 ≠ 0 ∧ (0x1001 : Word).toNat % 2 ≠ 0 ∧ (svc).cp15.alignOn = false ∧
    (translating 0xd3 [] 0x71).cp15.alignOn = false ∧
    (translating 0xd3 [] 0x71).Aborts .read .word true 0x100006 ⟨0b1001, 1, 0x100004, false⟩ := by
  unfold State.Aborts
  decide

/-- On a flat machine, and on one that translates. -/
theorem witness_LoadMultiple : let s := svc [(1, 0x1000)] lowWords
    let t := translating 0xd3 [(1, 0x1000)] 0x71
    s.passes .al = true ∧ s.Quiet ∧ s.Flat ∧
    sound [.armLdmia .al false true 1 0x8005, .armLdmib .al false true 1 5, .armLdmda .al false false 1 7,
      .armLdmdb .al false false 1 1] ∧ (listedRegs (0x8005 : BitVec 16)).length = 3 ∧
    s.ReadsWords .blockRead true 0x1000 [0x89ABCDEF, 0x11111111, 0] ∧ t.Quiet ∧ t.ReadsWords .blockRead true 0x4000 [0xc12, 0x200432] := by
  refine ⟨by decide, quiet_svc, flat_svc, by unfold sound; decide, by decide, ?_,
    quiet_machine _ (by decide) rfl rfl rfl rfl, ?_⟩
  · exact ⟨⟨⟨0x1000, false, false, true, none⟩, by unfold State.Reaches; decide, by decide⟩,
      ⟨⟨0x1004, false, false, true, none⟩, by unfold State.Reaches; decide, by decide⟩,
      ⟨⟨0x1008, false, false, true, none⟩, by unfold State.Reaches; decide, by decide⟩, trivial⟩
  · exact ⟨⟨⟨0x4000, false, false, true, some (sectionEntry 0xc12 0x4000)⟩, by unfold State.Reaches; decide, by decide⟩,
      ⟨⟨0x4004, false, false, true, some (sectionEntry 0xc12 0x4000)⟩, by unfold State.Reaches; decide, by decide⟩,
      trivial⟩

/-- Without and with r15 in the list, an SPSR with a legal mode, and none; with the words a flat machine
reads. -/
theorem witness_LoadMultipleWithCaret :
    let s := { svc [(1, 0x1000)] lowWords with spsrSvc := 0x10 }
    s.passes .al = true ∧ s.Quiet ∧ s.Flat ∧ usr.Quiet ∧ usr.passes .al = true ∧
    sound [.armLdmia .al true false 1 0x6000, .armLdmia .al true true 1 0x8001,
      .armLdmdb .al true false 1 0x6000] ∧
    s.spsrOf s.mode = some 0x10 ∧ legalMode 0x10 = true ∧ usr.spsrOf usr.mode = none ∧
    (s.flatWords 0x1000 2).length = (listedRegs (0x8001 : BitVec 16)).length :=
  ⟨by decide, quiet_machine _ (by decide) rfl rfl rfl rfl, ⟨by decide, by decide, rfl⟩,
    quiet_machine _ (by decide) rfl rfl rfl rfl, by decide, by unfold sound; decide, by decide, by decide,
    by decide, by decide⟩

/-- With and without ^, the base lowest in the list; the words let through on a flat machine. -/
theorem witness_StoreMultiple : let s := svc [(1, 0x1000)] lowWords
    s.passes .al = true ∧ s.Quiet ∧ s.Flat ∧
    sound [.armStmia .al false true 1 0x8002, .armStmib .al true false 1 0x6000, .armStmda .al false true 1 6,
      .armStmdb .al false false 1 1] ∧ s.spsrOf s.mode = some 0 ∧
    (∀ vs, s.WritesWords .blockWrite true 0x1000 vs (flatAddresses 0x1000 vs.length)) ∧
    usr.passes .al = true ∧ usr.Quiet ∧ usr.spsrOf usr.mode = none :=
  ⟨by decide, quiet_svc, flat_svc, by unfold sound; decide, by decide,
    fun _ => flat_svc.writesWords quiet_svc _ _ _ _, by decide,
    quiet_machine _ (by decide) rfl rfl rfl rfl, by decide⟩

theorem witness_ThumbMultiple : let s := svcThumb [(1, 0x1000)] lowWords
    s.Quiet ∧ s.Flat ∧ sound [.thumbPush true 0, .thumbPush false 6, .thumbPop true 1, .thumbStmia 1 6,
      .thumbLdmia 1 5] ∧ s.ReadsWords .blockRead true 0x1000 (s.flatWords 0x1000 2) ∧
    s.WritesWords .blockWrite true 0x1000 [1, 2] (flatAddresses 0x1000 2) ∧
    (s.flatWords 0x1000 2).length = (listedRegs (5 : BitVec 8)).length :=
  ⟨quiet_thumb, flat_thumb, by unfold sound; decide, flat_thumb.readsWords quiet_thumb _ _ _ _,
    flat_thumb.writesWords quiet_thumb _ _ _ [1, 2], by decide⟩

/-- LDMIA r1!, with r0 and r2 across the end of a section: the second word aborts; LDMIA with ^ of both kinds,
POP and Thumb LDMIA are block loads too. -/
theorem witness_DataAbortOfLoadMultiple :
    let s := translating 0xd3 [(1, 0xffffc)] 0x71
    let x := s.loadWords .blockRead s.privileged (listedRegs (5 : BitVec 16)) 0xffffc .empty
    s.IsBlockLoad ⟨.armLdmia .al false true 1 5, 0xffffc, 1, some 0x100004, [0, 2], .svc⟩ ∧
    s.IsBlockLoad ⟨.armLdmia .al true false 1 0x8001, 0xffffc, 1, none, [0, 15], .svc⟩ ∧
    s.IsBlockLoad ⟨.armLdmia .al true false 1 0x6000, 0xffffc, 1, none, [13, 14], .usr⟩ ∧
    s.IsBlockLoad ⟨.thumbLdmia 1 5, 0xffffc, 1, some 0x100004, [0, 2], .svc⟩ ∧
    s.pins.dbgen = false ∧ s.dbg.ack = false ∧ x.1.stop = none ∧
    x.1.abort = some ⟨0b1001, 1, 0x100000, false⟩ ∧ x.1.loaded = [(0, 0)] :=
  ⟨⟨by decide, .inl ⟨.al, false, true, 1, 5, by decide, by decide, .head _⟩⟩,
    ⟨by decide, .inl ⟨.al, true, false, 1, 0x8001, by decide, by decide, .head _⟩⟩,
    ⟨by decide, .inl ⟨.al, true, false, 1, 0x6000, by decide, by decide, .head _⟩⟩,
    ⟨by decide, .inr ⟨false, 1, 5, .tail _ (.head _)⟩⟩, by decide⟩

theorem witness_SwapExchanges : let s := svc [(1, 0x1000)] lowWords
    s.passes .al = true ∧ s.Quiet ∧ sound [.armSwp .al 1 0 2, .armSwpb .al 1 0 2] ∧
    s.Reaches .swapWrite .word s.privileged (s.reg 1) ⟨0x1000, false, false, true, none⟩ :=
  ⟨by decide, quiet_svc, by unfold sound; decide, by unfold State.Reaches; decide⟩

/-- An abort of the read, an abort of the write after a read that succeeds (AP = 0, S = 1), and an ERROR to
the read and to the write. -/
theorem witness_DataAbortOfSwap :
    let s := translating 0xd3 [(1, 0x100004)] 0x71
    let t := translating 0xd3 [(1, 0x600000)] 0x171
    s.passes .al = true ∧ s.Quiet ∧ sound [.armSwp .al 1 0 2, .armSwpb .al 1 0 2] ∧
    s.Aborts .swapRead .word s.privileged (s.reg 1) ⟨0b1001, 1, 0x100004, false⟩ ∧ t.passes .al = true ∧ t.Quiet ∧
    t.Reaches .swapRead .word t.privileged (t.reg 1)
      ⟨0x300000, false, false, true, some (sectionEntry 0x300012 0x600000)⟩ ∧
    t.Aborts .swapWrite .word t.privileged (t.reg 1) ⟨0b1101, 0, 0x600000, false⟩ ∧
    (let v := { t with memsys := { t.memsys with answers := [okay, error] } };
      (v.load .swapRead .word v.privileged 0x1000).1 = .abort ⟨0b1000, 0, 0x1000, false⟩) ∧
    let v := { t with memsys := { t.memsys with answers := [okay, okay, error] } }
    (let p := v.memsys.resolve false v.cp15 .swapRead .word v.privileged 0x1000;
      (∃ r, p.1 = .ok r) ∧ ∀ x ∈ answersTaken (p.2.drain false).answers, x.writes = []) ∧
    (v.load .swapRead .word v.privileged 0x1000).1 = .ok 0 ∧
    ((v.load .swapRead .word v.privileged 0x1000).2.store .swapWrite .word v.privileged 0x1000 (v.reg 2)).1 =
      .abort ⟨0b1000, 0, 0x1000, false⟩ :=
  ⟨by decide, quiet_translating, by unfold sound; decide, by unfold State.Aborts; decide, by decide,
    quiet_machine _ (by decide) rfl rfl rfl rfl, by unfold State.Reaches; decide, by unfold State.Aborts; decide,
    by decide, ⟨⟨_, rfl⟩, by decide⟩, by decide, by decide⟩

theorem witness_ThumbArithmetic : sound [.thumbCmpImm 0 1, .thumbCmpReg 1 0, .thumbCmn 1 0,
    .thumbCmpHi 9 8] := by
  unfold sound
  decide

/-- With a destination other than r15 and with r15. -/
theorem witness_ThumbHighAndAddress : (svcThumb).thumb = true ∧
    sound [.thumbAddHi 8 0, .thumbMovHi 0 8, .thumbAddHi 0 15, .thumbMovHi 14 15, .thumbAddPc 0 1,
      .thumbAddSp 0 1, .thumbIncSp 1, .thumbDecSp 1] := by
  unfold sound
  decide

/-- No coprocessor 7; CP15 in User mode; CP14 forms R366 lists and does not; busy and absent answers. -/
theorem witness_CoprocessorNotReady :
    (svc).passes .al = true ∧ (svc).platform.extCoprocs.getLsbD (7 : BitVec 4).toNat = false ∧
    sound [.armCdp .al 1 3 2 7 5 4, .armLdc .al true true false false 1 2 7 4,
      .armStc .al true true false false 1 2 7 4, .armMcr .al 0 8 0 7 1 7, .armMrc .al 0 8 0 7 1 7,
      .armMcr .al 0 0 0 14 0 0, .armMrc .al 0 3 0 14 0 0] ∧
    usr.passes .al = true ∧ usr.privileged = false ∧
    (∀ a : CoprocAnswer, let s := { coproc7 0 [] svc with coproc := [⟨a, 0, []⟩] }
      ¬ (s.platform.extCoprocs.getLsbD (7 : BitVec 4).toNat = false ∨ (7 : BitVec 4) = 14 ∨ (7 : BitVec 4) = 15) ∧
      s.coproc = [⟨a, 0, []⟩] ∧ s.passes .al = true) := by
  refine ⟨by decide, by decide, by unfold sound; decide, by decide, by decide, ?_⟩
  intro a
  cases a <;> exact ⟨by decide, rfl, by decide⟩

theorem witness_CoprocessorReady : let s := coproc7 5 [] svc
    s.passes .al = true ∧ s.platform.extCoprocs.getLsbD (7 : BitVec 4).toNat = true ∧ (7 : BitVec 4) ≠ 14 ∧
    (7 : BitVec 4) ≠ 15 ∧ s.coproc = [⟨.ready, 5, []⟩] ∧ (0 : Reg) ≠ 15 := by decide

/-- Pre-indexed, post-indexed and unindexed; the words let through on a flat machine. -/
theorem witness_CoprocessorTransfer : let s := coproc7 5 [6] (svc [(1, 0x1000)] lowWords)
    s.passes .al = true ∧ s.Quiet ∧ s.Flat ∧ s.platform.extCoprocs.getLsbD (7 : BitVec 4).toNat = true ∧
    s.coproc = [⟨.ready, 5, [6]⟩] ∧ sound [.armLdc .al true true false true 1 2 7 4,
      .armLdc .al false false false true 1 2 7 4, .armLdc .al false true false false 15 2 7 4] ∧
    (s.flatWords 0x1010 2).length = 1 + [(6 : Word)].length :=
  ⟨by decide, quiet_machine _ (by decide) rfl rfl rfl rfl, ⟨by decide, by decide, rfl⟩, by decide, rfl,
    by unfold sound; decide, by decide⟩

/-- The Test State Register on (R54). -/
def svcTest : State := let s := svc; { s with cp15 := { s.cp15 with testOn := true } }

/-- In test state and not. -/
theorem witness_Cp15Reads : (svc).passes .al = true ∧ (svc).privileged = true ∧ (svc).cp15.testOn = false ∧
    (svcTest).passes .al = true ∧ (svcTest).privileged = true ∧ (svcTest).cp15.testOn = true := by decide

/-- A value that is written, values that would turn cache or write buffer on without the MMU, and values
whose bits [31:14] or [12:10] are zero, were read, or neither. -/
theorem witness_Cp15Writes : (svc).passes .al = true ∧ (svc).privileged = true ∧ (0 : Reg) ≠ 15 ∧
    ([0x5, 0x9, 0x0, 0x4, 0x8].map fun v : Word => (v.getLsbD 2 || v.getLsbD 3) && !v.getLsbD 0) =
      [false, false, false, true, true] ∧
    ([0x75, 0x475, 0x80000475, 0x80000075].map fun v : Word =>
      ({ (svc).cp15 with controlReads := [0x80000475] }).controlSbz v) = [true, true, true, true] ∧
    ([0x75, 0x475, 0x80000075].map fun v : Word => (svc).cp15.controlSbz v) = [true, false, false] := by decide

/-- INTEST with a scan chain selected, and one event to come. -/
def scanning (chain : BitVec 4) (e : EnvEvent) : State :=
  let s := svc
  { s with dbg := { s.dbg with tapInstr := 0b1100, scanPath := chain }, schedule := [e] }

/-- A program's side, and a debugger's. -/
theorem witness_Cp14Operations : (svc).passes .al = true ∧ (0 : Reg) ≠ 15 ∧
    (scanning 2 (.scan2 true 5 7)).dbg.tapInstr = 0b1100 ∧ (scanning 2 (.scan2 true 5 7)).dbg.scanPath = 2 ∧
    (scanning 2 (.scan2 true 5 7)).schedule = [.scan2 true 5 7] := by decide

/-- The last address of the first 32MB and the first above it; MMU off with A clear, and with A set at aligned
addresses. -/
theorem witness_FlatAddress : (0x01ffffff : Word).toNat < 2 ^ 25 ∧ ¬ (0x02000000 : Word).toNat < 2 ^ 25 ∧
    fcse 1 0x01ffffff = 0x03ffffff ∧ fcse 1 0x02000000 = 0x02000000 ∧
    (svc).cp15.control.getLsbD 0 = false ∧ (svc).cp15.alignOn = false ∧
    (machine 0x8000 0xd3 [] [] false true).cp15.alignOn = true ∧ (0x1002 : Word).toNat % 2 = 0 ∧
    (0x1004 : Word).toNat % 4 = 0 := by decide

/-- Each domain access code, and the permission table for a client with AP = 2. -/
theorem witness_DomainAndPermission :
    ([0, 1, 2, 3].map fun d : Word => ({ Cp15.reset with dacr := d }).dacr.extractLsb' 0 2) = [0, 1, 2, 3] ∧
    (sectionEntry 0x812 0).ap = 2 ∧ (sectionEntry 0x812 0).domain = 0 := by decide

/-- Misses on an empty TLB, with each level one and level two descriptor type. -/
theorem witness_TableWalk :
    let ms := (translating 0xd3 [] 0x71).memsys
    ([0x000000, 0x200000, 0x403000, 0x404000, 0x405000, 0x418000, 0x500c00, 0x501000, 0x501400,
      0x501800].map fun mva : Word => ms.tlbLookup mva) = List.replicate 10 none ∧
    ([0x4000, 0x4008, 0x4010, 0x4014].map fun a : Word => (ms.mem.word false a).extractLsb' 0 2) =
      [2, 0, 1, 3] ∧
    ([0x500c, 0x5010, 0x5014, 0x5060, 0x600c, 0x6010, 0x6014, 0x6018].map fun a : Word =>
      (ms.mem.word false a).extractLsb' 0 2) = [2, 0, 3, 1, 3, 0, 2, 1] := by decide

/-- An entry that answers, and one that an invalidation of another address leaves; test state, and a match and
a miss there; out of it. -/
theorem witness_TlbOperations :
    let s := translating 0xd3 [] 0x71
    let ms := (s.memsys.translate false s.cp15 0x1234).2
    s.passes .al = true ∧ s.privileged = true ∧ (0 : Reg) ≠ 15 ∧
    (ms.tlbLookup 0x1238).isSome = true ∧
    (ms.tlb.toList.all fun x => !(x.hits 0x100000 && x.hits 0x1238)) = true ∧ s.cp15.testOn = false ∧
    (svcTest).passes .al = true ∧ (svcTest).privileged = true ∧ (svcTest).cp15.testOn = true ∧
    (svcTest).reg 0 = 0 ∧ (svcTest).memsys.tlbLookup 0 = none := by decide

/-- A cachable address that misses, and one that hits on a quiet machine; test state. -/
theorem witness_CacheOperations :
    let s := translating 0xd3 [] 0x75
    let line : CacheLine := ⟨true, tagOf 0x300aa4, Vector.replicate 8 7⟩
    let t := { s with memsys := s.memsys.setLine (segmentOf 0x300aa4) 5 line }
    s.passes .al = true ∧ s.privileged = true ∧ (0 : Reg) ≠ 15 ∧ s.cp15.cacheOn = true ∧
    (sectionEntry 0x200c1e 0x300aa4).cachable = true ∧ s.memsys.cacheFind 0x300aa4 = none ∧
    t.Quiet ∧ t.cp15.cacheOn = true ∧ t.memsys.cacheFind 0x300aa4 = some 5 ∧ s.cp15.testOn = false ∧
    (svcTest).cp15.testOn = true ∧ (svcTest).memsys.cacheStep = false ∧
    (svcTest).reg 0 &&& 0xffffff9f = 0 :=
  ⟨by decide, by decide, by decide, by decide, by decide, by decide,
    quiet_machine _ (by decide) rfl rfl rfl rfl, by decide, by decide, by decide, by decide, by decide, by decide⟩

/-- An empty buffer, one with seven writes and a full one; the bus granted; unbuffered; outside the cache. -/
theorem witness_WriteBufferOrder :
    let s := translating 0xd3 [(1, 0x100004)] 0x79
    let w : BufferedWrite := ⟨0x200000, .word, 1, 0b0111, .single⟩
    s.Quiet ∧ s.cp15.bufferOn = true ∧ (sectionEntry 0x200c1e 0x300aa4).bufferable = true ∧
    s.memsys.wbuf.length < 8 ∧ (List.replicate 7 w).length < 8 ∧ (List.replicate 8 w).length = 8 ∧
    { s with schedule := [.busGrant] }.schedule = [.busGrant] ∧
    { s.memsys with wbuf := [w] }.wbuf = [w] ∧ (svc).cp15.bufferOn = false ∧ (svc).cp15.cacheOn = false :=
  ⟨quiet_machine _ (by decide) rfl rfl rfl rfl, by decide, by decide, by decide, by decide, by decide, rfl, rfl,
    by decide, by decide⟩

theorem witness_ByteOrder : (svc [] lowWords).memsys.mem.wf = true ∧ (0x1002 : Word).toNat % 2 = 0 ∧
    (0x1004 : Word).toNat % 4 = 0 := by decide

theorem inv_svc : (svc).Inv :=
  ⟨by decide, by decide, by decide, by decide, by decide, by decide, by decide⟩

theorem witness_StepKeepsInvariant : (svc).Inv ∧ ∃ t, step svc = .next t := ⟨inv_svc, ⟨_, rfl⟩⟩

/-- Between two instructions, and in the middle of MOV r0. -/
theorem witness_ResetState : let a : Abandoned := ⟨1, 0, 0, 0, 0, 0, [0x1000], 0⟩
    { svcThumb with schedule := [.reset true none 0 0] }.schedule = [.reset true none 0 0] ∧
    let s := { (svc).withFetchWord 32 0xE3A00F41 with schedule := [.reset false (some a) 0 0] }
    s.schedule = [.reset false (some a) 0 0] ∧ (∃ u, State.coreStep { s with schedule := [] } = .next u) ∧
    s.memsys.mem.wf = true ∧ s.memsys.wbuf = [] := ⟨rfl, rfl, ⟨_, rfl⟩, by decide, rfl⟩

/-- A step of User mode that goes on, and one that enters an exception. -/
theorem witness_UserModeIsConfined :
    usr.mode = .usr ∧ usr.schedule = [] ∧ usr.pins.dbgen = false ∧ (∃ t, step usr = .next t) ∧
    ∃ t, step { usr with pins := { usr.pins with irq := true } } = .next t ∧ t.mode = .irq :=
  ⟨by decide, rfl, rfl, ⟨_, rfl⟩, ⟨_, rfl, by decide⟩⟩

/-- Unit 0 watches fetches of 0x8000, in halt mode and in monitor mode. -/
def watched (ctl : BitVec 6) : State :=
  let s := (svc).withFetchWord 32 0xE3A00F41
  { s with
    pins := { s.pins with dbgen := true }
    dbg := { s.dbg with
      ctl := ctl, unit0 := ⟨0x8000, 0, 0, 0xffffffff, 0x100, 0xf7⟩ } }

/-- The same units watching data accesses of 0x1000. -/
def watchedData (ctl : BitVec 6) : State :=
  let s := svc [(1, 0x1000)] lowWords
  { s with
    pins := { s.pins with dbgen := true }
    dbg := { s.dbg with
      ctl := ctl, unit0 := ⟨0x1000, 0, 0, 0xffffffff, 0x108, 0xf7⟩ } }

/-- A breakpoint in each mode; a load and a store of the watched address in each mode; a remembered
watchpoint. -/
theorem witness_BreakpointTaken :
    (∀ ctl ∈ [(0 : BitVec 6), 0x10], let s := watched ctl
      s.pins.dbgen = true ∧ s.schedule = [] ∧ s.stuck = none ∧ s.dbg.ack = false ∧ s.dbg.pending = false ∧
      s.debugRequested = false ∧ s.offTop = false ∧ s.interrupt.isNone = true ∧
      s.wordPasses 0xE3A00F41 = true ∧ s.prefetch.pipe = ⟨.ok 0xE3A00F41, true⟩ :: s.prefetch.pipe.tail) ∧
    (∀ ctl ∈ [(0 : BitVec 6), 0x10], let s := watchedData ctl
      s.pins.dbgen = true ∧ s.Reaches .read .word true 0x1000 ⟨0x1000, false, false, true, none⟩ ∧
      s.Reaches .write .word true 0x1000 ⟨0x1000, false, false, true, none⟩ ∧
      s.triggers (s.readCycle .word true 0x1000 ⟨0x1000, false, false, true, none⟩) = true ∧
      s.triggers (writeCycle .word true 0x1000 0) = true) ∧
    (watchedData 0).undebugged.Quiet ∧
    (watchedData 0).IsLoad ⟨.armLdr .al .offset true 1 0 (.imm 0), .word, 0x1000, none, true, 0,
      rotatedWord 0x1000⟩ ∧
    (watchedData 0).IsStore ⟨.armStr .al .offset true 1 0 (.imm 0), .word, 0x1000, none, true, 0, id⟩ ∧
    let s := { watchedData 0 with dbg := { (watchedData 0).dbg with pending := true } }
    s.schedule = [] ∧ s.stuck = none ∧ s.dbg.ack = false ∧ s.dbg.pending = true ∧ s.interrupt.isNone = true :=
  ⟨by decide, by unfold State.Reaches; decide, quiet_machine _ (by decide) rfl rfl rfl rfl,
    ⟨by decide, .inl ⟨.al, .offset, true, 1, 0, .imm 0, by decide, .head _⟩⟩,
    ⟨by decide, .inl ⟨.al, .offset, true, 1, 0, .imm 0, by decide, .head _⟩⟩, by decide⟩

/-! ## The bus and the debugger: one step each -/

/-- The state a step answers with. -/
def after (s : State) (chk : State → Bool) : Bool :=
  match step s with
  | .next t => chk t
  | _ => false

/-- R73, R95: two halfwords of one word are one transfer, and the third is another. -/
theorem test_thumb_fetches_words :
    (machine 0x8000 0xf3 [] [] false false).prefetch.memsys.bus.map BusTransfer.pa = [0x8000, 0x8004] ∧
    (svcThumb).prefetch.memsys.bus.map BusTransfer.pa = [0x8002 &&& 0xfffffffc, 0x8004] := by decide

/-- R160, R161: a line fill by a privileged data read of a cachable and bufferable region. -/
theorem test_transfer_protection : after
    ((translating 0xd3 [(1, 0x300000)] 0x75).withFetchWord 32 0xE5910000)
    (fun t => ((t.memsys.bus.filter fun x => x.prot = some 0b1111 && x.burst = .incr8).map BusTransfer.trans) =
      .nonseq :: List.replicate 7 .seq) = true := by decide

/-- R9, R162: nothing at an address aborts a load; a ROM takes no write. -/
theorem test_slaves :
    (let s := (svc [(1, 0x1000)] lowWords).withFetchWord 32 0xE5910000;
      after { s with memsys := { s.memsys with slaves := [⟨0x1000, 0x1fff, .absent⟩] } }
        fun t => t.mode = .abt && t.cp15.far = 0x1000) = true ∧
    (let s := (svc [(1, 0x1000)] lowWords).withFetchWord 32 0xE5811000;
      after { s with memsys := { s.memsys with slaves := [⟨0x1000, 0x1fff, .rom⟩] } }
        fun t => t.memsys.mem.word false 0x1000 = 0x89ABCDEF) = true := by decide

/-- R101, R172: another master writes the second word of an LDM between the two loads. -/
theorem test_masterWrite_between_loads :
    (let s := (svc [(1, 0x1000)] lowWords).withFetchWord 32 0xE891000C;
      after { s with memsys := { s.memsys with answers := [okay, okay, okay, okay, ⟨[(0x1004, 7)], .okay, 0⟩] } }
        fun t => t.reg 2 = 0x89ABCDEF && t.reg 3 = 0x11111107) = true := by decide

/-- R162: RETRY and SPLIT make the core repeat the transfer of a load. -/
theorem test_retry_repeats :
    (let s := (svc [(1, 0x1000)] lowWords).withFetchWord 32 0xE5910000;
      after { s with memsys := { s.memsys with
          answers := [okay, okay, okay, ⟨[], .retry, 0⟩, ⟨[], .split, 0⟩, okay, error] } }
        fun t => t.reg 0 = 0x89ABCDEF && t.memsys.answers = [error] &&
          t.memsys.bus.map BusTransfer.pa = [0x8000, 0x8004, 0x8008, 0x1000, 0x1000, 0x1000]) = true := by decide

/-- R101, R162, R168: a SWP's read is repeated with the bus locked. -/
theorem test_swap_retry_locked :
    (let s := (svc [(1, 0x1000), (2, 5)] lowWords).withFetchWord 32 0xE1010092;
      after { s with memsys := { s.memsys with
          answers := [okay, okay, okay, ⟨[(0x1000, 9)], .retry, 0⟩, ⟨[(0x1000, 7)], .okay, 0⟩] } }
        fun t => t.reg 0 = 0x89ABCD09 && t.memsys.mem.word false 0x1000 = 5) = true := by decide

/-- R159, R160, R331: the words of an LDM are an INCR burst, NONSEQ and then SEQ, the fetches single. -/
theorem test_ldm_burst :
    (let s := (svc [(1, 0x1000)] lowWords).withFetchWord 32 0xE891001C;
      after s fun t =>
        t.memsys.bus.map BusTransfer.burst = [.single, .single, .single, .incr, .incr, .incr] &&
        t.memsys.bus.map BusTransfer.trans = [.nonseq, .nonseq, .nonseq, .nonseq, .seq, .seq]) = true := by
  decide

/-- R159, R162: a beat answered RETRY is driven again NONSEQ, as its address is that of the transfer before it. -/
theorem test_retried_beat :
    (let s := (svc [(1, 0x1000)] lowWords).withFetchWord 32 0xE891001C
     let okay : BusAnswer := ⟨[], .okay, 0⟩
     after { s with memsys := { s.memsys with
         answers := [okay, okay, okay, okay, ⟨[], .retry, 0⟩, okay] } }
       fun t => (t.memsys.bus.drop 3).map BusTransfer.trans = [.nonseq, .seq, .nonseq, .seq]) = true := by decide

/-- R65, R550: DBGRQ set through scan chain 2 requests debug state once RUN-TEST/IDLE has opened the latch. -/
theorem test_request_latch :
    (let s := { svc with dbg := { (svc).dbg with ctl := 2 }, pins := { (svc).pins with dbgen := true } };
      !s.debugRequested && after { s with schedule := [.runTestIdle] } fun t => t.debugRequested) = true := by
  decide

/-- R361: the words of an STC are single transfers. -/
theorem test_stc_single :
    (let s := (coproc7 5 [6] (svc [(1, 0x1000)] lowWords)).withFetchWord 32 0xED812704;
      after s fun t => t.memsys.bus.map BusTransfer.burst = List.replicate 5 .single &&
        t.memsys.mem.word false 0x1014 = 6) = true := by decide

/-- R183, R197, R549: MOVEQ with a field that Should Be Zero, its condition failing, scanned in. -/
theorem test_debug_failed_condition :
    (let s := scanning 1 (.debugInstr 0x01A10002 false);
      after { s with dbg := { s.dbg with ack := true } } fun t => t.pc = s.pc + 4 && t.regs == s.regs) = true := by
  decide

/-- R549, R555: behind bit 33 HIGH a store waits for RESTART and then reaches memory, in debug state. -/
theorem test_system_speed :
    (let s := scanning 1 (.debugInstr 0xE5801000 false);
      after { s with dbg := { s.dbg with ack := true, bit33 := true } }
        fun t => t.dbg.held = some 0xE5801000 && t.memsys == s.memsys && t.pc = s.pc) = true ∧
    (let s := svc [(0, 0x1000), (1, 7)];
      after { s with
          dbg := { s.dbg with tapInstr := 0b0100, ack := true, held := some 0xE5801000 }, schedule := [.runTestIdle] }
        fun t => t.memsys.mem.word false 0x1000 = 7 && t.dbg.ack && t.pc = s.pc + 12) = true := by decide

/-- R557 (E9 of 95_test_vectors.md): the branch that waits, -6, leaves debug state sixteen bytes back. -/
theorem test_final_branch :
    (let s := svc;
      after { s with
          dbg := { s.dbg with tapInstr := 0b0100, ack := true, held := some 0xEAFFFFFA }, schedule := [.runTestIdle] }
        fun t => t.pc = s.pc - 16 && !t.dbg.ack) = true := by decide

/-- R549: STRH to an odd address at debug speed. -/
theorem test_debug_strh_odd :
    (let s := scanning 1 (.debugInstr 0xE1C010B0 false);
      let u := s.setReg 1 0x1234
      after { u.setReg 0 0x1001 with dbg := { s.dbg with ack := true } }
        fun t => t.dbg.scanOut = [0x12341234]) = true := by decide

/-- R170: STRH to iaddr + 6 in Thumb state, iaddr at a word's first half: its new form is fetched. -/
theorem test_thumb_store_refetch :
    (let s := machine 0x8000 0xf3 [(0, 0x8006), (1, 0x46C0)] [] false false
     let t := s.prefetch
     match exec (.thumbStrhImm 0 0 1) t with
      | .next u => (u.prefetch.pipe.getD 2 ⟨.ok 0, true⟩).got == .ok 0x46C0
      | _ => false) = true := by decide

/-- R571: two reads while HRESETn is LOW. -/
theorem test_reset_reads : after { svc with schedule := [.reset false none 0x9002 2] }
    (fun t => t.memsys.bus.map BusTransfer.pa = [0x9000, 0x9004] && t.pc = 0) = true := by decide

/-- R554: RESTART outside debug state changes nothing. -/
theorem test_restart_outside_debug :
    (let s := (svc).prefetch;
      after { s with dbg := { s.dbg with tapInstr := 0b0100 }, schedule := [.runTestIdle] }
        fun t => t.pipe == s.pipe) = true := by decide

/-- R292, R429, R549: with bits [1:0] = b10 BX of a register is refused in debug state too; BX PC is not. -/
theorem test_debug_bx :
    (let s := svc [(1, 0x1002)]; exec (.armBx .al 1) { s with dbg := { s.dbg with ack := true } } =
      .refused .bxMisaligned) ∧
    ∃ u, exec (.thumbBx 15) { svcThumb with pc := 0x8002, dbg := { svcThumb.dbg with ack := true } } = .next u ∧
      u.pc = 0x8004 := ⟨rfl, _, rfl, by decide⟩

/-- R333, R586: after a User-bank transfer another one runs, a use of r13 does not. -/
theorem test_second_user_transfer :
    (let s := (svc [(0, 0x1000)] lowWords).withFetchWord 32 0xE8D06000;
      after { s with userBank := true } fun t => t.regs[phys .usr 13] = 0x89ABCDEF) = true ∧
    (let s := (svc).withFetchWord 32 0xE1A0000D;
      step { s with userBank := true } = .refused .bankedAfterUserTransfer) := ⟨by decide, rfl⟩

/-- R547: debug entry after a watchpoint with a Data Abort fetches the abort vector first. -/
theorem test_watchpoint_abort_fetches :
    (let s := watchedData 0;
      after { s with pc := 0x10, dbg := { s.dbg with pending := true, pendingAbort := true } }
        fun t => t.dbg.ack && t.pc = 0x18 && t.memsys.bus.map BusTransfer.pa = [0x10]) = true := by decide

/-- R570: an abandoned STR whose first two bytes have reached memory. -/
theorem test_reset_abandons_store :
    (let s := (svc [(1, 0x1000)] lowWords).withFetchWord 32 0xE5811000;
      after { s with schedule := [.reset false (some ⟨0, 0, 0, 0, 0, 0, [0x1000, 0x1001], 0⟩) 0 0] }
        fun t => t.memsys.mem.word false 0x1000 = 0x89AB1000 && t.pc = 0) = true := by decide

/-- R45, U9: a write of c2 with a bit that Should Be Zero. -/
theorem test_armMcr_sbz :
    exec (.armMcr .al 0 2 1 15 0 0) (svc [(1, 0x4001)]) = .refused .cp15SbzBits := rfl

/-- R554, R555: the ID register; bit 33 of scan chain 1 after a breakpoint and after a watchpoint; the reserved
chain 3. -/
theorem test_captures :
    (let s := scanning 2 .captureDr;
      after { s with dbg := { s.dbg with tapInstr := 0b1110 }, platform := State.reset.platform }
        fun t => t.dbg.scanResult = 0x7f1f0f0f) = true ∧
    (∀ c ∈ [DebugCause.breakpoint, .watchpoint], let s := scanning 1 .captureDr;
      after { s with dbg := { s.dbg with ack := true, cause := some c, firstCapture := true } }
        (fun t => t.dbg.scanBit = (c == .watchpoint) && !t.dbg.firstCapture) = true) ∧
    (let s := scanning 3 .captureDr;
      after { s with dbg := { s.dbg with scanResult := 9 } } fun t => t.dbg.scanResult = 0) = true := by decide

/-- R549: after BX in debug state the next word scanned in is discarded. -/
theorem test_debug_branch_discards :
    (let s := scanning 1 (.debugInstr 0x47784778 false);
      after { s with cpsr := 0xf3, dbg := { s.dbg with ack := true } }
        fun t => !t.thumb && t.dbg.discard = 2) = true ∧
    (let s := scanning 1 (.debugInstr 0x46C046C0 false);
      after { s with dbg := { s.dbg with ack := true, discard := 2 } }
        fun t => t.dbg.discard = 1 && t.pc = s.pc && t.memsys = s.memsys) = true := by decide

end Sys2Proof.Tests
end

section
/-! # What the memory system keeps, whatever the bus answers

`Laws/Access.lean` says what an access does on a calm bus. The lemmas here assume nothing of the bus: they name
what every transfer, and what every access, leaves as it is. -/

namespace Sys2Proof.Machine

/-! ## Two relations between memory systems -/

/-- The registers of the cache and TLB test operations (R55 to R58). -/
structure TestRegs where
  cacheVictim : Vector (BitVec 6) 4
  cacheBase : BitVec 6
  cacheStep : Bool
  c15c : Word
  tlbBase : BitVec 6
  tlbPreserve : Bool
  ram2Pointer : BitVec 6
  c15m : Word

/-- Those a memory system holds: the ones `SameTestRegs` compares. -/
def MemSys.testRegs (ms : MemSys) : TestRegs :=
  ⟨ms.cacheVictim, ms.cacheBase, ms.cacheStep, ms.c15c, ms.tlbBase, ms.tlbPreserve, ms.ram2Pointer, ms.c15m⟩

theorem sameTestRegs_iff (s t : State) : SameTestRegs s t ↔ t.memsys.testRegs = s.memsys.testRegs := by
  constructor
  · rintro ⟨h1, h2, h3, h4, h5, h6, h7, h8⟩
    simp only [MemSys.testRegs, h1, h2, h3, h4, h5, h6, h7, h8]
  · intro h
    obtain ⟨h1, h2, h3, h4, h5, h6, h7, h8⟩ := TestRegs.mk.inj h
    exact ⟨h1, h2, h3, h4, h5, h6, h7, h8⟩

/-- What transfers on the bus leave as it is: all but memory, the lists of the bus and the counter. -/
structure MemSys.OnBus (a b : MemSys) : Prop where
  canonical : a.mem.wf = true → b.mem.wf = true
  wbuf : b.wbuf = a.wbuf
  cache : b.cache = a.cache
  tlb : b.tlb = a.tlb
  tests : b.testRegs = a.testRegs

theorem MemSys.OnBus.refl (a : MemSys) : a.OnBus a := ⟨id, rfl, rfl, rfl, rfl⟩

theorem MemSys.OnBus.trans {a b c : MemSys} (x : a.OnBus b) (y : b.OnBus c) : a.OnBus c :=
  ⟨y.canonical ∘ x.canonical, y.wbuf.trans x.wbuf, y.cache.trans x.cache, y.tlb.trans x.tlb,
    y.tests.trans x.tests⟩

/-- What an access of the core keeps (R100): memory's canonical form, the bound on the write buffer (R150),
the test registers. -/
structure MemSys.Served (a b : MemSys) : Prop where
  canonical : a.mem.wf = true → b.mem.wf = true
  buffer : a.wbuf.length ≤ 8 → b.wbuf.length ≤ 8
  tests : b.testRegs = a.testRegs

theorem MemSys.Served.refl (a : MemSys) : a.Served a := ⟨id, id, rfl⟩

theorem MemSys.Served.trans {a b c : MemSys} (x : a.Served b) (y : b.Served c) : a.Served c :=
  ⟨y.canonical ∘ x.canonical, y.buffer ∘ x.buffer, y.tests.trans x.tests⟩

theorem MemSys.OnBus.served {a b : MemSys} (h : a.OnBus b) : a.Served b :=
  ⟨h.canonical, fun hb => by rw [h.wbuf]; exact hb, h.tests⟩

/-! ## Transfers -/

theorem Memory.wf_setBytes {m : Memory} (l : List (Word × Byte)) (h : m.wf = true) :
    (m.setBytes l).wf = true := by
  induction l generalizing m with
  | nil => exact h
  | cons p rest ih => exact ih (Memory.wf_set h p.1.isLt)

theorem MemSys.onBus_draw (ms : MemSys) : ms.OnBus ms.draw.2 := ⟨id, rfl, rfl, rfl, rfl⟩

theorem MemSys.onBus_taken (big : Bool) (n : Size) (pa v : Word) (ms : MemSys) :
    ms.OnBus (ms.taken big n pa v) := by
  unfold MemSys.taken
  split
  · exact ⟨fun h => Memory.wf_store h, rfl, rfl, rfl, rfl⟩
  · exact .refl ms

theorem MemSys.onBus_drive (t : BusTransfer) (l : List BusAnswer) (b : Bool) (ms : MemSys) :
    ms.OnBus (ms.drive t l b).2 := by
  induction l generalizing b ms with
  | nil => exact ⟨id, rfl, rfl, rfl, rfl⟩
  | cons a rest ih =>
    have driven : ms.OnBus { ms with
        answers := rest
        bus := ms.bus ++ [t.drivenAfter ms.bus]
        mem := if t.lock && b then ms.mem else ms.mem.setBytes a.writes } := by
      refine ⟨fun h => ?_, rfl, rfl, rfl, rfl⟩
      split
      · exact h
      · exact Memory.wf_setBytes _ h
    unfold MemSys.drive
    simp only
    split
    · exact driven.trans (ih true _)
    · exact driven

theorem MemSys.onBus_transfer (t : BusTransfer) (ms : MemSys) : ms.OnBus (ms.transfer t).2 :=
  MemSys.onBus_drive t ms.answers t.write.isSome ms

theorem MemSys.onBus_perform (big : Bool) (e : BufferedWrite) (ms : MemSys) :
    ms.OnBus (ms.perform big e) := by
  unfold MemSys.perform
  have h := MemSys.onBus_transfer
    ⟨e.pa, e.size, some (replicated e.size e.data), some e.prot, false, e.burst, .nonseq⟩ ms
  generalize ms.transfer _ = x at h ⊢
  obtain ⟨a, m⟩ := x
  simp only
  split
  · split
    · exact (h.trans m.onBus_draw).trans (MemSys.onBus_taken ..)
    · exact h.trans m.onBus_draw
  · exact h.trans (MemSys.onBus_taken ..)

theorem MemSys.onBus_performAll (big : Bool) (l : List BufferedWrite) (ms : MemSys) :
    ms.OnBus (MemSys.performAll big l ms) := by
  induction l generalizing ms with
  | nil => exact .refl ms
  | cons e rest ih => exact (ms.onBus_perform big e).trans (ih _)

/-! ## The write buffer -/

theorem MemSys.served_drain (big : Bool) (ms : MemSys) : ms.Served (ms.drain big) := by
  have h := MemSys.onBus_performAll big ms.wbuf { ms with wbuf := [] }
  exact ⟨h.canonical, fun _ => by rw [MemSys.drain, h.wbuf]; simp, h.tests⟩

/-- A grant of the bus takes the oldest write out of the buffer (R152). -/
theorem MemSys.drainOne_wbuf (big : Bool) (ms : MemSys) : (ms.drainOne big).wbuf = ms.wbuf.tail := by
  unfold MemSys.drainOne
  split
  · rename_i h; simp [h]
  · rename_i e rest h; rw [(MemSys.onBus_perform ..).wbuf, h]; rfl

theorem MemSys.served_drainOne (big : Bool) (ms : MemSys) : ms.Served (ms.drainOne big) := by
  have buffer : ms.wbuf.length ≤ 8 → (ms.drainOne big).wbuf.length ≤ 8 := fun h => by
    rw [ms.drainOne_wbuf big, List.length_tail]; omega
  unfold MemSys.drainOne at buffer ⊢
  split at buffer
  · exact .refl ms
  · rename_i e rest h
    have p := MemSys.onBus_perform big e { ms with wbuf := rest }
    exact ⟨p.canonical, buffer, p.tests⟩

/-- The bound of the buffer is kept because a full buffer performs its oldest write first (R150, R152). -/
theorem MemSys.served_enqueue (big : Bool) (e : BufferedWrite) (ms : MemSys) :
    ms.Served (ms.enqueue big e) := by
  unfold MemSys.enqueue
  split
  · rename_i room
    exact ⟨id, fun _ => by simp only [List.length_append, List.length_singleton]; omega, rfl⟩
  · rename_i full
    have d := ms.served_drainOne big
    refine ⟨d.canonical, fun h => ?_, d.tests⟩
    simp only [List.length_append, List.length_singleton, MemSys.drainOne_wbuf, List.length_tail]
    omega

/-! ## Aborts, the table walk, the TLB -/

theorem MemSys.onBus_alignmentFault (mva : Word) (ms : MemSys) : ms.OnBus (ms.alignmentFault mva).2 :=
  ms.onBus_draw

theorem MemSys.onBus_sectionTranslationFault (mva : Word) (ms : MemSys) :
    ms.OnBus (ms.sectionTranslationFault mva).2 := ms.onBus_draw

theorem MemSys.onBus_externalAbort (entry : Option TlbEntry) (mva : Word) (ms : MemSys) :
    ms.OnBus (ms.externalAbort entry mva).2 := by
  cases entry with
  | none => exact ms.onBus_draw
  | some e => exact .refl ms

theorem MemSys.onBus_walkRead (big : Bool) (pa : Word) (ms : MemSys) : ms.OnBus (ms.walkRead big pa).2 :=
  MemSys.onBus_transfer ..

theorem MemSys.onBus_walk (big : Bool) (ttb : BitVec 18) (mva : Word) (ms : MemSys) :
    ms.OnBus (ms.walk big ttb mva).2 := by
  have first := MemSys.onBus_walkRead big (l1Address ttb mva) ms
  unfold MemSys.walk
  generalize ms.walkRead big (l1Address ttb mva) = x at first ⊢
  obtain ⟨l1, m⟩ := x
  simp only
  split
  · exact first
  · exact first.trans (MemSys.onBus_walkRead big _ m)
  · exact first
  · exact first.trans (MemSys.onBus_walkRead big _ m)

theorem MemSys.served_tlbFill (e : TlbEntry) (ms : MemSys) : ms.Served (ms.tlbFill e) :=
  ⟨id, id, rfl⟩

theorem MemSys.served_translate (big : Bool) (cp : Cp15) (mva : Word) (ms : MemSys) :
    ms.Served (ms.translate big cp mva).2 := by
  unfold MemSys.translate
  split
  · exact .refl ms
  · have w := (MemSys.onBus_walk big cp.ttb mva ms).served
    generalize ms.walk big cp.ttb mva = x at w ⊢
    obtain ⟨found, m⟩ := x
    cases found with
    | sectionFault => exact w.trans (MemSys.onBus_sectionTranslationFault mva m).served
    | pageFault domain => exact w
    | tinyInCoarse => exact w
    | entry e => exact w.trans (m.served_tlbFill e)

theorem MemSys.served_route (big : Bool) (cp : Cp15) (k : Access) (priv : Bool) (mva : Word) (ms : MemSys) :
    ms.Served (ms.route big cp k priv mva).2 := by
  unfold MemSys.route
  split
  · have t := MemSys.served_translate big cp mva ms
    generalize ms.translate big cp mva = x at t ⊢
    obtain ⟨e | i | r, m⟩ := x
    · simp only
      split <;> exact t
    · exact t
    · exact t
  · exact .refl ms

theorem MemSys.served_resolve (big : Bool) (cp : Cp15) (k : Access) (n : Size) (priv : Bool) (va : Word)
    (ms : MemSys) : ms.Served (ms.resolve big cp k n priv va).2 := by
  unfold MemSys.resolve
  split
  · exact (ms.onBus_alignmentFault (fcse cp.pid va)).served
  · exact MemSys.served_route ..

/-! ## The cache -/

theorem MemSys.served_setLine (seg : Fin 4) (i : Fin 64) (l : CacheLine) (ms : MemSys) :
    ms.Served (ms.setLine seg i l) := ⟨id, id, rfl⟩

theorem MemSys.served_updateLine (b : Bool) (n : Size) (mva v : Word) (ms : MemSys) :
    ms.Served (ms.updateLine b n mva v) := by
  unfold MemSys.updateLine
  split
  · exact .refl ms
  · exact MemSys.served_setLine ..

theorem MemSys.onBus_fillWords (big : Bool) (prot : BitVec 4) (base : Word) (l : List Nat) (ms : MemSys) :
    ms.OnBus (MemSys.fillWords big prot base l ms).2 := by
  induction l generalizing ms with
  | nil => exact .refl ms
  | cons i rest ih =>
    unfold MemSys.fillWords
    simp only
    have t := MemSys.onBus_transfer ⟨base + BitVec.ofNat 32 (4 * i), .word, none, some prot, false, .incr8,
      if i = 0 then .nonseq else .seq⟩ ms
    generalize ms.transfer _ = x at t ⊢
    obtain ⟨a, m⟩ := x
    simp only
    split
    · exact (t.trans m.onBus_draw).trans (ih _)
    · exact t.trans (ih _)

theorem MemSys.served_lineFill (big : Bool) (prot : BitVec 4) (mva pa : Word) (ms : MemSys) :
    ms.Served (ms.lineFill big prot mva pa).2 := by
  have h := (ms.served_drain big).trans
    (MemSys.onBus_fillWords big prot (pa &&& 0xffffffe0) (List.range 8) (ms.drain big)).served
  unfold MemSys.lineFill
  generalize MemSys.fillWords big prot (pa &&& 0xffffffe0) (List.range 8) (ms.drain big) = x at h ⊢
  obtain ⟨vs, m⟩ := x
  exact ⟨h.canonical, h.buffer, h.tests⟩

/-! ## Reads and writes -/

theorem MemSys.served_externalRead (big : Bool) (k : Access) (n : Size) (r : Route) (mva : Word)
    (ms : MemSys) : ms.Served (ms.externalRead big k n r mva).2 := by
  have t := (ms.served_drain big).trans (MemSys.onBus_transfer
    ⟨r.pa, n, none, some (r.prot k), k == .swapRead, k.burst, k.trans⟩ (ms.drain big)).served
  unfold MemSys.externalRead
  generalize (ms.drain big).transfer _ = x at t ⊢
  obtain ⟨a, m⟩ := x
  simp only
  split
  · exact t.trans (m.onBus_externalAbort r.entry mva).served
  · exact t

theorem MemSys.served_externalWrite (big : Bool) (k : Access) (n : Size) (r : Route) (mva v : Word)
    (ms : MemSys) : ms.Served (ms.externalWrite big k n r mva v).2 := by
  have t := (ms.served_drain big).trans (MemSys.onBus_transfer
    ⟨r.pa, n, some (replicated n v), some (r.prot k), k == .swapWrite, k.burst, k.trans⟩
    (ms.drain big)).served
  unfold MemSys.externalWrite
  generalize (ms.drain big).transfer _ = x at t ⊢
  obtain ⟨a, m⟩ := x
  simp only
  split
  · exact t.trans (m.onBus_externalAbort r.entry mva).served
  · exact t.trans (MemSys.onBus_taken big n r.pa v m).served

theorem MemSys.served_readRoute (big : Bool) (cp : Cp15) (k : Access) (n : Size) (mva : Word) (r : Route)
    (ms : MemSys) : ms.Served (ms.readRoute big cp k n mva r).2 := by
  unfold MemSys.readRoute
  split
  · split
    · exact .refl ms
    · have l := MemSys.served_lineFill big (r.prot k) mva r.pa ms
      generalize ms.lineFill big (r.prot k) mva r.pa = x at l ⊢
      exact l
  · exact MemSys.served_externalRead ..

theorem MemSys.served_writeRoute (big : Bool) (cp : Cp15) (k : Access) (n : Size) (mva v : Word) (r : Route)
    (ms : MemSys) : ms.Served (ms.writeRoute big cp k n mva v r).2 := by
  unfold MemSys.writeRoute
  have line : ms.Served (if cp.cacheOn then ms.updateLine cp.bigEndian n mva v else ms) := by
    split
    · exact MemSys.served_updateLine ..
    · exact .refl ms
  generalize (if cp.cacheOn then ms.updateLine cp.bigEndian n mva v else ms) = m at line ⊢
  have stale : ms.Served { m with thumbStale := true } := ⟨line.canonical, line.buffer, line.tests⟩
  simp only
  split
  · exact stale.trans (MemSys.served_enqueue ..)
  · exact stale.trans (MemSys.served_externalWrite ..)

/-- A read or fetch (R100), whatever it meets. -/
theorem MemSys.served_read (big : Bool) (cp : Cp15) (k : Access) (n : Size) (priv : Bool) (va : Word)
    (ms : MemSys) : ms.Served (ms.read big cp k n priv va).2 := by
  have h := MemSys.served_resolve big cp k n priv va ms
  unfold MemSys.read
  generalize ms.resolve big cp k n priv va = x at h ⊢
  obtain ⟨r | i | e, m⟩ := x
  · exact h.trans (MemSys.served_readRoute ..)
  · exact h
  · exact h

/-- A write (R100), whatever it meets. -/
theorem MemSys.served_write (big : Bool) (cp : Cp15) (k : Access) (n : Size) (priv : Bool) (va v : Word)
    (ms : MemSys) : ms.Served (ms.write big cp k n priv va v).2 := by
  have h := MemSys.served_resolve big cp k n priv va ms
  unfold MemSys.write
  generalize ms.resolve big cp k n priv va = x at h ⊢
  obtain ⟨r | i | e, m⟩ := x
  · exact h.trans (MemSys.served_writeRoute ..)
  · exact h
  · exact h

end Sys2Proof.Machine
end

section
/-! # What an instruction can do

`State.Does` lists, once for all meanings, the changes an instruction makes one after another; `State.Executes`
is a sequence of them that may end in an exception entry. `exec_executes` says that no instruction does anything
else: what holds of the listed changes holds of every instruction. -/

namespace Sys2Proof.Machine

/-! ## What an operation answers -/

/-- Every next state an answer gives has a property. -/
structure Yields (P : State → Prop) (o : Out) : Prop where
  next : ∀ t, o = .next t → P t

@[simp] theorem yields_next (P : State → Prop) (t : State) : Yields P (.next t) ↔ P t :=
  ⟨fun h => h.next t rfl, fun h => ⟨fun _ e => Host.Outcome.next.inj e ▸ h⟩⟩

@[simp] theorem yields_fault (P : State → Prop) (f : Fault) : Yields P (.fault f) :=
  ⟨fun _ e => by cases e⟩

@[simp] theorem yields_refused (P : State → Prop) (r : Refusal) : Yields P (.refused r) :=
  ⟨fun _ e => by cases e⟩

theorem Yields.mono {P Q : State → Prop} {o : Out} (h : Yields P o) (pq : ∀ t, P t → Q t) : Yields Q o :=
  ⟨fun t e => pq t (h.next t e)⟩

/-! ## Accesses of the core -/

/-- What data accesses leave as it is: all but the memory system, the debug logic and the counter of free
values; the memory system as `MemSys.Served` says, and debug state goes on or stays away. -/
structure State.Accessed (s t : State) : Prop where
  same : t = { s with memsys := t.memsys, dbg := t.dbg, draws := t.draws }
  served : s.memsys.Served t.memsys
  ack : t.dbg.ack = s.dbg.ack

theorem State.Accessed.refl (s : State) : s.Accessed s := ⟨rfl, .refl _, rfl⟩

theorem State.Accessed.trans {s t u : State} (x : s.Accessed t) (y : t.Accessed u) : s.Accessed u :=
  ⟨y.same.trans (by rw [x.same]), x.served.trans y.served, y.ack.trans x.ack⟩

theorem State.Accessed.cpsr {s t : State} (h : s.Accessed t) : t.cpsr = s.cpsr := by
  rw [h.same]

theorem State.Accessed.mode {s t : State} (h : s.Accessed t) : t.mode = s.mode := State.mode_congr h.cpsr

theorem State.Accessed.with_memsys {s t : State} {ms : MemSys} (h : s.Accessed t) (m : s.memsys.Served ms) :
    s.Accessed { t with memsys := ms } :=
  ⟨congrArg (fun u : State => { u with memsys := ms }) h.same, m, h.ack⟩

theorem State.accessed_memsys {s : State} {ms : MemSys} (h : s.memsys.Served ms) :
    s.Accessed { s with memsys := ms } := ⟨rfl, h, rfl⟩

theorem State.accessed_debug {s : State} {d : Debug} (h : d.ack = s.dbg.ack) : s.Accessed { s with dbg := d } :=
  ⟨rfl, .refl _, h⟩

theorem State.accessed_draw (s : State) : s.Accessed s.draw.2 := ⟨rfl, .refl _, rfl⟩

theorem State.accessed_compare (y : BusCycle) (s : State) : s.Accessed (s.compare y).2 := by
  unfold State.compare
  split
  · exact State.accessed_debug rfl
  · exact .refl s

theorem State.accessed_watch (y : BusCycle) (s : State) : s.Accessed (s.watch y).2 := by
  have c := s.accessed_compare y
  unfold State.watch
  generalize s.compare y = x at c ⊢
  obtain ⟨hit, u⟩ := x
  simp only
  split
  · exact c.trans (State.accessed_debug rfl)
  · exact c

theorem State.accessed_scanLoad (s : State) : s.Accessed s.scanLoad.2 := by
  unfold State.scanLoad
  split
  · exact State.accessed_debug rfl
  · exact s.accessed_draw

theorem State.accessed_load (k : Access) (n : Size) (priv : Bool) (va : Word) (s : State) :
    s.Accessed (s.load k n priv va).2 := by
  unfold State.load
  split
  · exact s.accessed_scanLoad
  · have m := State.accessed_memsys (MemSys.served_read s.platform.bigEndian s.cp15 k n priv va s.memsys)
    generalize s.memsys.read s.platform.bigEndian s.cp15 k n priv va = x at m ⊢
    obtain ⟨w | i | r, ms⟩ := x
    · have w := m.trans (State.accessed_watch ⟨va, w, 0, false, n, true, priv⟩ _)
      simp only
      split <;> exact w
    · exact m.trans (State.accessed_watch _ _)
    · exact m

theorem State.accessed_store (k : Access) (n : Size) (priv : Bool) (va v : Word) (s : State) :
    s.Accessed (s.store k n priv va v).2 := by
  unfold State.store
  split
  · exact State.accessed_debug rfl
  · have m := MemSys.served_write s.platform.bigEndian s.cp15 k n priv va v s.memsys
    have w := s.accessed_watch ⟨va, replicated n v, 0, true, n, true, priv⟩
    generalize s.memsys.write s.platform.bigEndian s.cp15 k n priv va v = x at m ⊢
    generalize s.watch _ = y at w ⊢
    obtain ⟨got, ms⟩ := x
    obtain ⟨hit, u⟩ := y
    cases got with
    | ok => simp only; split <;> [exact w; exact w.with_memsys m]
    | abort i => exact w.with_memsys m
    | stop r => exact w.with_memsys m

theorem State.accessed_loadWords (k : Access) (priv : Bool) (l : List Reg) (a : Word) (b : Block) (s : State) :
    s.Accessed (s.loadWords k priv l a b).2 := by
  induction l generalizing s k a b with
  | nil => exact .refl s
  | cons i rest ih =>
    unfold State.loadWords
    split
    · exact .refl s
    · exact (s.accessed_load k .word priv a).trans (ih ..)

theorem State.accessed_storeWords (k : Access) (priv : Bool) (l : List Word) (a : Word) (b : Block)
    (s : State) : s.Accessed (s.storeWords k priv l a b).2 := by
  induction l generalizing s k a b with
  | nil => exact .refl s
  | cons v rest ih =>
    unfold State.storeWords
    split
    · exact .refl s
    · exact (s.accessed_store k .word priv a v).trans (ih ..)

/-! ## Operations of CP15 -/

/-- The constant bits of the Control Register (R43), and no cache or write buffer with the MMU off (R44). -/
structure Cp15.Legal (cp : Cp15) : Prop where
  control : controlOf cp.control = cp.control
  cacheOff : cp.mmuOn = false → cp.cacheBit = false ∧ cp.bufferBit = false

theorem Cp15.Legal.of_control {a b : Cp15} (h : a.Legal) (e : b.control = a.control) : b.Legal :=
  ⟨by rw [e]; exact h.control, by unfold Cp15.mmuOn Cp15.cacheBit Cp15.bufferBit; rw [e]; exact h.cacheOff⟩

/-- What a write of CP15 changes: CP15, whose Control Register stays legal, and the cache, the TLB and the
test registers of the memory system. -/
structure State.Configures (s t : State) : Prop where
  same : t = { s with cp15 := t.cp15, memsys := t.memsys }
  mem : t.memsys.mem = s.memsys.mem
  wbuf : t.memsys.wbuf = s.memsys.wbuf
  legal : s.cp15.Legal → t.cp15.Legal

theorem controlOf_getLsbD (v : Word) {i : Nat} (h : i < 32) :
    (controlOf v).getLsbD i =
      if i < 4 then v.getLsbD i else if i < 7 then true else if i < 10 then v.getLsbD i
      else if i = 13 then v.getLsbD 13 else false := by
  simp only [controlOf, BitVec.getLsbD_append, BitVec.getLsbD_extractLsb']
  interval_cases i <;> simp

/-- M, A, C and W of the Control Register a value makes are the value's. -/
theorem controlOf_low (v : Word) {i : Nat} (h : i < 4) : (controlOf v).getLsbD i = v.getLsbD i := by
  rw [controlOf_getLsbD v (by omega), if_pos h]

theorem controlOf_controlOf (v : Word) : controlOf (controlOf v) = controlOf v := by
  apply BitVec.eq_of_getLsbD_eq
  intro i hi
  simp only [controlOf_getLsbD _ hi, controlOf_getLsbD _ (show 13 < 32 by decide)]
  grind

theorem State.writeControl_configures {v : Word} {s t : State} (h : s.writeControl v = .ok t) :
    s.Configures t := by
  unfold State.writeControl at h
  split at h
  · cases h
  · split at h
    · cases h
    · rename_i off
      cases h
      refine ⟨rfl, rfl, rfl, fun _ => ⟨controlOf_controlOf v, ?_⟩⟩
      simp only [Cp15.mmuOn, Cp15.cacheBit, Cp15.bufferBit, controlOf_low v (show 0 < 4 by decide),
        controlOf_low v (show 2 < 4 by decide), controlOf_low v (show 3 < 4 by decide)]
      grind

theorem sbzWrite_ok {mask v : Word} {s t : State} (h : sbzWrite mask v s = .ok t) : t = s := by
  unfold sbzWrite at h
  split at h
  · cases h; rfl
  · cases h

theorem State.testOp_ok {f : MemSys → MemSys} {s t : State} (h : s.testOp f = .ok t) :
    t = { s with memsys := f s.memsys } := by
  unfold State.testOp testOnly at h
  split at h
  · cases h; rfl
  · cases h

theorem State.configures_cp15 {s : State} {cp : Cp15} (h : cp.control = s.cp15.control) :
    s.Configures { s with cp15 := cp } := ⟨rfl, rfl, rfl, fun l => l.of_control h⟩

/-- Memory and the write buffer are the same. -/
structure MemSys.SameContent (a b : MemSys) : Prop where
  mem : b.mem = a.mem
  wbuf : b.wbuf = a.wbuf

theorem State.configures_memsys {s : State} {ms : MemSys} (h : s.memsys.SameContent ms) :
    s.Configures { s with memsys := ms } := ⟨rfl, h.mem, h.wbuf, id⟩

theorem MemSys.sameContent_bumpAfterRam (seg : Fin 4) (ms : MemSys) :
    ms.SameContent (ms.bumpAfterRam seg) := by
  unfold MemSys.bumpAfterRam
  split <;> exact ⟨rfl, rfl⟩

theorem MemSys.sameContent_ramRead (v : Word) (ms : MemSys) : ms.SameContent (ms.ramRead v) :=
  ⟨(MemSys.sameContent_bumpAfterRam ..).mem, (MemSys.sameContent_bumpAfterRam ..).wbuf⟩

theorem MemSys.sameContent_ramWrite (v : Word) (ms : MemSys) : ms.SameContent (ms.ramWrite v) :=
  ⟨(MemSys.sameContent_bumpAfterRam ..).mem, (MemSys.sameContent_bumpAfterRam ..).wbuf⟩

theorem MemSys.sameContent_camMatch (v : Word) (ms : MemSys) : ms.SameContent (ms.camMatch v) := by
  unfold MemSys.camMatch
  simp only
  split <;> exact ⟨(MemSys.sameContent_bumpAfterRam ..).mem, (MemSys.sameContent_bumpAfterRam ..).wbuf⟩

theorem MemSys.sameContent_tlbCamMatch (cp : Cp15) (mva : Word) (ms : MemSys) :
    ms.SameContent (ms.tlbCamMatch cp mva) := by
  unfold MemSys.tlbCamMatch
  split <;> exact ⟨rfl, rfl⟩

theorem State.configures_testOp {f : MemSys → MemSys} {s t : State} (h : s.testOp f = .ok t)
    (same : s.memsys.SameContent (f s.memsys)) : s.Configures t := by
  rw [State.testOp_ok h]
  exact State.configures_memsys same

theorem State.configures_sbzWrite {mask v : Word} {cp : Cp15} {s t : State}
    (h : sbzWrite mask v { s with cp15 := cp } = .ok t) (same : cp.control = s.cp15.control) :
    s.Configures t := by
  rw [sbzWrite_ok h]
  exact State.configures_cp15 same

theorem State.cp15Write_configures {op1 : BitVec 3} {crn crm : BitVec 4} {op2 : BitVec 3} {v : Word}
    {s t : State} (h : s.cp15Write op1 crn crm op2 v = .ok t) : s.Configures t := by
  unfold State.cp15Write at h
  split at h
  exacts [
    -- c1, c2, c3, c5, c6
    State.writeControl_configures h, State.configures_sbzWrite h rfl,
    Except.ok.inj h ▸ State.configures_cp15 rfl, State.configures_sbzWrite h rfl,
    Except.ok.inj h ▸ State.configures_cp15 rfl,
    -- c7, c8
    Except.ok.inj h ▸ State.configures_memsys ⟨rfl, rfl⟩,
    Except.ok.inj h ▸ State.configures_memsys ⟨rfl, rfl⟩,
    Except.ok.inj h ▸ State.configures_memsys ⟨rfl, rfl⟩,
    Except.ok.inj h ▸ State.configures_memsys ⟨rfl, rfl⟩,
    Except.ok.inj h ▸ State.configures_memsys ⟨rfl, rfl⟩,
    Except.ok.inj h ▸ State.configures_memsys ⟨rfl, rfl⟩,
    Except.ok.inj h ▸ State.configures_memsys ⟨rfl, rfl⟩,
    -- c13, the Test State Register
    State.configures_sbzWrite h rfl, Except.ok.inj h ▸ State.configures_cp15 rfl,
    Except.ok.inj h ▸ State.configures_cp15 rfl,
    -- c9, c10
    State.configures_testOp h ⟨rfl, rfl⟩, State.configures_testOp h ⟨rfl, rfl⟩,
    State.configures_testOp h ⟨rfl, rfl⟩, State.configures_testOp h ⟨rfl, rfl⟩,
    State.configures_testOp h ⟨rfl, rfl⟩,
    -- c15: the cache
    State.configures_testOp h ⟨rfl, rfl⟩, State.configures_testOp h ⟨rfl, rfl⟩,
    State.configures_testOp h (MemSys.sameContent_ramRead ..),
    State.configures_testOp h (MemSys.sameContent_ramWrite ..),
    State.configures_testOp h (MemSys.sameContent_camMatch ..), State.configures_testOp h ⟨rfl, rfl⟩,
    -- c15: the TLB
    State.configures_testOp h ⟨rfl, rfl⟩, State.configures_testOp h ⟨rfl, rfl⟩,
    State.configures_testOp h ⟨rfl, rfl⟩, State.configures_testOp h ⟨rfl, rfl⟩,
    State.configures_testOp h ⟨rfl, rfl⟩, State.configures_testOp h ⟨rfl, rfl⟩,
    State.configures_testOp h (MemSys.sameContent_tlbCamMatch ..),
    -- no operation
    nomatch h]

end Sys2Proof.Machine
end

section
namespace Sys2Proof.Machine

/-! ## One change -/

/-- One change an instruction makes to the state, with what User mode forbids it. -/
inductive State.Does (s : State) : State → Prop
  /-- Accesses to memory, or at debug speed to the scan chain. -/
  | access {t : State} (h : s.Accessed t) : Does s t
  /-- General registers written; in User mode none of another mode's (R20, R22). -/
  | regs (r : Vector Word 30) (h : s.mode = .usr → ∀ k : Fin 30, 15 ≤ k.val → r[k] = s.regs[k]) :
      Does s { s with regs := r }
  /-- The top byte of the CPSR written (R38). -/
  | flags (psr : Word) (h : psr.extractLsb' 0 24 = s.cpsr.extractLsb' 0 24) : Does s { s with cpsr := psr }
  /-- The CPSR written by MSR in a privileged mode or in debug state: the mode stays legal and T as it is. -/
  | status (psr : Word) (may : s.privileged = true ∨ s.dbg.ack = true) (legal : legalMode psr = true)
      (state : psr.getLsbD 5 = s.cpsr.getLsbD 5) : Does s { s with cpsr := psr }
  /-- The SPSR of a mode that has one written. -/
  | saved (v : Word) (h : s.spsr.isSome = true) : Does s (s.setSpsrOf s.mode v)
  /-- On to the next instruction. -/
  | advance : Does s s.advance
  /-- A branch. -/
  | branch (v : Word) : Does s (s.branchTo v)
  /-- A branch with a change of state (R292). -/
  | exchange (b : Bool) (v : Word) : Does s ((s.setThumb b).branchTo v)
  /-- A return from an exception in a mode that has an SPSR (R243). -/
  | restore (psr v : Word) (h : s.spsr = some psr) (legal : legalMode psr = true) :
      Does s (State.branchTo v { s with cpsr := psr })
  /-- The machine stuck (R33, R35). -/
  | stuck (k : Stuck) : Does s { s with stuck := some k }
  /-- FSR and FAR written by an abort (R137). -/
  | fault (fsr : BitVec 8) (far : Word) : Does s { s with cp15 := { s.cp15 with fsr := fsr, far := far } }
  /-- CP14, the external coprocessors, the free values and the hazard of R586. -/
  | aside (cp : Cp14) (coproc : List CoprocReply) (calls : List CoprocCall) (draws : Nat) (hazard : Bool) :
      Does s { s with cp14 := cp, coproc := coproc, calls := calls, draws := draws, userBank := hazard }
  /-- CP15 written in a privileged mode (R364, R365). -/
  | configure {t : State} (may : s.privileged = true) (h : s.Configures t) : Does s t

/-- Any number of changes, one after another. -/
abbrev State.Leads : State → State → Prop := Relation.ReflTransGen State.Does

/-- What an instruction leads to: changes, and then it may enter an exception (R503). -/
inductive State.Executes (s : State) : State → Prop
  | completes {t : State} (h : s.Leads t) : Executes s t
  | enters {u : State} (h : s.Leads u) (e : Exc) (ret : Word) : Executes s (u.enter e ret)

theorem State.Does.leads {s t : State} (h : s.Does t) : s.Leads t := .single h

theorem State.Accessed.leads {s t : State} (h : s.Accessed t) : s.Leads t := (State.Does.access h).leads

theorem State.Does.executes {s t : State} (h : s.Does t) : s.Executes t := .completes h.leads

theorem State.Executes.after {s u t : State} (h : s.Leads u) (x : u.Executes t) : s.Executes t := by
  cases x with
  | completes y => exact .completes (h.trans y)
  | enters y e ret => exact .enters (h.trans y) e ret

/-- What an operation answers after changes. -/
theorem executes_after {s u : State} {o : Out} (h : s.Leads u) (x : Yields u.Executes o) :
    Yields s.Executes o := x.mono fun _ y => .after h y

/-! ## The changes by name -/

theorem phys_usr_lt (i : Reg) (h : i ≠ 15) : (phys .usr i).val < 15 := by
  revert h; revert i; decide

theorem State.does_setBankReg {m : Mode} (i : Reg) (v : Word) {s : State} (h : s.mode = .usr → m = .usr) :
    s.Does (s.setBankReg m i v) := by
  unfold State.setBankReg
  split
  · exact .access (.refl s)
  · rename_i hi
    refine .regs _ fun usr k hk => ?_
    have low : k ≠ phys m i := fun e => by
      have := phys_usr_lt i hi
      rw [← h usr, ← e] at this
      omega
    simp only [Fin.getElem_fin, Vector.getElem_set, Fin.val_inj, if_neg (Ne.symm low)]

theorem State.does_setReg (i : Reg) (v : Word) (s : State) : s.Does (s.setReg i v) :=
  State.does_setBankReg i v id

theorem State.does_setFlags (n z c v : Bool) (s : State) : s.Does (s.setFlags n z c v) := by
  refine .flags _ ?_
  apply BitVec.eq_of_getLsbD_eq
  intro i hi
  simp [withFlags_getLsbD, hi, show i < 28 by omega]

theorem State.does_draw (s : State) : s.Does s.draw.2 := .access s.accessed_draw

theorem State.does_call (x : CoprocCall) (s : State) : s.Does (s.call x) :=
  .aside s.cp14 s.coproc _ s.draws s.userBank

theorem State.leads_writeLoaded (bank : Mode) (except : Option Reg) (l : List (Reg × Word)) (s : State)
    (h : s.mode = .usr → bank = .usr) : s.Leads (s.writeLoaded bank except l) := by
  induction l generalizing s with
  | nil => exact .refl
  | cons p rest ih =>
    obtain ⟨i, w⟩ := p
    unfold State.writeLoaded
    split
    · exact ih s h
    · exact (State.does_setBankReg i w h).leads.trans (ih _ (by simpa [State.mode] using h))

/-- A status register of which the top byte alone may be written (R38). -/
theorem mergePsr_low (psr operand mask : Word) :
    (mergePsr psr operand (mask &&& 0xff000000)).extractLsb' 0 24 = psr.extractLsb' 0 24 := by
  apply BitVec.eq_of_getLsbD_eq
  intro i hi
  have high : (0xff000000 : Word).getLsbD i = false := by
    revert hi i; decide
  simp only [mergePsr, BitVec.getLsbD_extractLsb', BitVec.getLsbD_or, BitVec.getLsbD_and,
    BitVec.getLsbD_not, Nat.zero_add, high]
  simp [hi, show i < 32 by omega]

theorem State.executes_writeCpsr (mask : BitVec 4) (operand : Word) (s : State) :
    s.Executes (s.writeCpsr mask operand) := by
  unfold State.writeCpsr
  simp only
  split
  · exact (State.Does.stuck _).executes
  · rename_i state
    split
    · rename_i legal
      refine .completes (.head (b := { s with cpsr := mergePsr s.cpsr operand (s.cpsrMask mask) }) ?_
        (State.Does.advance).leads)
      by_cases may : s.privileged = true ∨ s.dbg.ack = true
      · exact .status _ may legal (by simpa using state)
      · refine .flags _ ?_
        have user : s.cpsrMask mask = psrMask mask &&& 0xff000000 := by
          simp only [State.cpsrMask]
          rw [if_neg (by simpa using may)]
        rw [user]
        exact mergePsr_low ..
    · exact (State.Does.stuck _).executes

theorem State.executes_returnTo (v : Word) (s : State) : Yields s.Executes (s.returnTo v) := by
  unfold State.returnTo
  split
  · exact yields_refused ..
  · rename_i psr h
    split
    · rename_i legal
      exact (yields_next ..).2 (State.Does.restore psr v h legal).executes
    · exact (yields_next ..).2 (State.Does.stuck _).executes

theorem State.executes_exchange (ignoreBit1 : Bool) (v : Word) (s : State) :
    Yields s.Executes (s.exchange ignoreBit1 v) := by
  unfold State.exchange
  split
  · exact yields_refused ..
  · exact (yields_next ..).2 (State.Does.exchange _ v).executes

theorem State.leads_recordDebugAbort (s : State) : s.Leads s.recordDebugAbort :=
  .head (State.does_draw s) (.head (State.does_draw _)
    (.head (.fault (s.draw.1.extractLsb' 0 8) s.draw.2.draw.1)
      (State.Does.aside { s.cp14 with dbgAbt := true } s.coproc s.calls (s.draws + 2) s.userBank).leads))

theorem State.does_rememberAbort (s : State) : s.Does s.rememberAbort := by
  unfold State.rememberAbort
  split
  · exact .access (State.accessed_debug rfl)
  · exact .access (.refl s)

theorem State.executes_takeDataAbort (i : AbortInfo) (s : State) : s.Executes (s.takeDataAbort i) := by
  unfold State.takeDataAbort
  refine .enters (.tail ?_ (State.does_rememberAbort _)) _ _
  split
  · exact s.leads_recordDebugAbort
  · exact (State.Does.fault _ _).leads

theorem State.executes_takePrefetchAbort (i : AbortInfo) (s : State) :
    s.Executes (s.takePrefetchAbort i) := by
  unfold State.takePrefetchAbort
  refine .enters ?_ _ _
  split
  · exact (State.Does.aside _ _ _ _ _).leads
  · split
    · exact (State.Does.fault _ s.cp15.far).leads
    · exact .refl

theorem State.executes_enter (e : Exc) (ret : Word) (s : State) : s.Executes (s.enter e ret) :=
  .enters .refl e ret

/-! ## The shapes of a meaning -/

theorem executes_conditional {c : Cond} {broken : Option Restriction} {effect : State → Out} {s : State}
    (h : Yields s.Executes (effect s)) : Yields s.Executes (s.conditional c broken effect) := by
  unfold State.conditional
  split
  · split
    · exact yields_refused ..
    · exact h
  · exact (yields_next ..).2 State.Does.advance.executes

theorem executes_unconditional {broken : Option Restriction} {effect : State → Out} {s : State}
    (h : Yields s.Executes (effect s)) : Yields s.Executes (s.unconditional broken effect) := by
  unfold State.unconditional
  split
  · exact yields_refused ..
  · exact h

theorem State.executes_advance {s u : State} (h : s.Leads u) : Yields s.Executes (.next u.advance) :=
  (yields_next ..).2 (.completes (.tail h .advance))

theorem State.executes_branchTo {s u : State} (h : s.Leads u) (v : Word) :
    Yields s.Executes (.next (u.branchTo v)) :=
  (yields_next ..).2 (.completes (.tail h (.branch v)))

theorem State.leads_setAluFlags (a : Alu) (s : State) : s.Leads (s.setAluFlags a) :=
  (State.does_setFlags ..).leads

theorem State.executes_finish {s u : State} (h : s.Leads u) (rd : Reg) (v : Word) :
    Yields s.Executes (.next (u.finish rd v)) := by
  unfold State.finish
  split
  · exact State.executes_branchTo h v
  · exact State.executes_advance (.tail h (State.does_setReg rd v u))

/-! ## Data processing, multiplies, status registers -/

theorem executes_dataProc (c : Cond) (broken : Option Restriction) (sf : Bool) (rd : Reg)
    (f : State → Alu) (s : State) : Yields s.Executes (dataProc c broken sf rd f s) := by
  refine executes_conditional ?_
  unfold dataProcWrite
  split
  · split
    · exact State.executes_returnTo _ s
    · exact State.executes_branchTo .refl _
  · refine State.executes_advance (.tail ?_ (State.does_setReg ..))
    split
    · exact s.leads_setAluFlags _
    · exact .refl

theorem executes_dataTest (c : Cond) (broken : Option Restriction) (f : State → Alu) (s : State) :
    Yields s.Executes (dataTest c broken f s) :=
  executes_conditional (State.executes_advance (s.leads_setAluFlags _))

theorem State.leads_multiplyFlags (r : Word) (s : State) : s.Leads (s.multiplyFlags r) :=
  .tail s.does_draw.leads (State.does_setFlags ..)

theorem State.leads_longMultiplyFlags (p : BitVec 64) (s : State) : s.Leads (s.longMultiplyFlags p) :=
  .tail s.does_draw.leads (State.does_setFlags ..)

theorem executes_multiply (c : Cond) (sf : Bool) (broken : Option Restriction) (rd : Reg)
    (value : State → Word) (s : State) : Yields s.Executes (multiply c sf broken rd value s) := by
  refine executes_conditional (State.executes_advance (.tail ?_ (State.does_setReg ..)))
  split
  · exact s.leads_multiplyFlags _
  · exact .refl

theorem executes_multiplyLong (c : Cond) (sf : Bool) (broken : Option Restriction) (rdHi rdLo : Reg)
    (value : State → BitVec 64) (s : State) :
    Yields s.Executes (multiplyLong c sf broken rdHi rdLo value s) := by
  refine executes_conditional
    (State.executes_advance (.tail (.tail ?_ (State.does_setReg ..)) (State.does_setReg ..)))
  split
  · exact s.leads_longMultiplyFlags _
  · exact .refl

theorem executes_mrs (c : Cond) (spsr : Bool) (rd : Reg) (s : State) :
    Yields s.Executes (execArmMrs c spsr rd s) := by
  refine executes_conditional ?_
  simp only
  split
  · exact yields_refused ..
  · exact State.executes_advance (.tail s.does_draw.leads (State.does_setReg ..))

theorem State.executes_msr (spsr : Bool) (mask : BitVec 4) (operand : Word) (s : State) :
    Yields s.Executes (s.msr spsr mask operand) := by
  unfold State.msr
  split
  · split
    · exact yields_refused ..
    · rename_i old h
      exact State.executes_advance (State.Does.saved _ (by rw [h]; rfl)).leads
  · exact (yields_next ..).2 (s.executes_writeCpsr mask operand)

theorem executes_thumbWrite (rd : LowReg) (a : Alu) (s : State) : Yields s.Executes (thumbWrite rd a s) :=
  State.executes_advance (.tail (s.leads_setAluFlags a) (State.does_setReg ..))

theorem executes_thumbTest (a : Alu) (s : State) : Yields s.Executes (thumbTest a s) :=
  State.executes_advance (s.leads_setAluFlags a)

/-! ## Transfers of one datum and swaps -/

theorem State.leads_writeBack (p : Place) (s : State) : s.Leads (s.writeBack p) := by
  unfold State.writeBack
  split
  · exact .refl
  · exact (State.does_setReg ..).leads

/-- A transfer that aborts writes its base back and then takes the abort (R317). -/
theorem State.executes_abort {s u : State} (h : s.Leads u) (p : Place) (i : AbortInfo) :
    Yields s.Executes (.next ((u.writeBack p).takeDataAbort i)) :=
  (yields_next ..).2 (.after (h.trans (u.leads_writeBack p)) (State.executes_takeDataAbort ..))

theorem State.executes_loadTo (n : Size) (p : Place) (value : Word → Word) (rd : Reg) (s : State) :
    Yields s.Executes (s.loadTo n p value rd) := by
  have l := (s.accessed_load .read n p.priv p.addr).leads
  unfold State.loadTo
  generalize s.load .read n p.priv p.addr = x at l ⊢
  obtain ⟨w | i | r, u⟩ := x
  · exact State.executes_finish (l.trans (u.leads_writeBack p)) rd _
  · exact State.executes_abort l p i
  · exact yields_refused ..

theorem State.executes_loadHalfTo (p : Place) (value : Word → Word) (rd : Reg) (s : State) :
    Yields s.Executes (s.loadHalfTo p value rd) := by
  unfold State.loadHalfTo
  split
  · exact executes_after s.does_draw.leads (State.executes_loadTo ..)
  · exact State.executes_loadTo ..

theorem State.executes_storeFrom (n : Size) (p : Place) (v : Word) (s : State) :
    Yields s.Executes (s.storeFrom n p v) := by
  have l := (s.accessed_store .write n p.priv p.addr v).leads
  unfold State.storeFrom
  generalize s.store .write n p.priv p.addr v = x at l ⊢
  obtain ⟨w | i | r, u⟩ := x
  · exact State.executes_advance (l.trans (u.leads_writeBack p))
  · exact State.executes_abort l p i
  · exact yields_refused ..

theorem State.executes_storeHalf (p : Place) (rd : Reg) (s : State) :
    Yields s.Executes (s.storeHalf p rd) := by
  unfold State.storeHalf
  split
  · exact yields_refused ..
  · exact State.executes_storeFrom ..

theorem State.executes_swap (n : Size) (rd : Reg) (value : Word → Word) (a src : Word) (s : State) :
    Yields s.Executes (s.swap n rd value a src) := by
  have l := s.accessed_load .swapRead n s.privileged a
  unfold State.swap
  generalize s.load .swapRead n s.privileged a = x at l ⊢
  obtain ⟨w | i | r, s1⟩ := x
  · have st := l.trans (s1.accessed_store .swapWrite n s1.privileged a src)
    simp only
    generalize s1.store .swapWrite n s1.privileged a src = y at st ⊢
    obtain ⟨_ | i | r, s2⟩ := y
    · exact State.executes_advance (.tail st.leads (State.does_setReg ..))
    · have back : s.Accessed { s2 with memsys := { s2.memsys with cache := s1.memsys.cache } } :=
        st.with_memsys ⟨st.served.canonical, st.served.buffer, st.served.tests⟩
      exact (yields_next ..).2 (.after back.leads (State.executes_takeDataAbort ..))
    · exact yields_refused ..
  · exact (yields_next ..).2 (.after l.leads (State.executes_takeDataAbort ..))
  · exact yields_refused ..

/-! ## Block transfers -/

theorem State.leads_writeBlockBase (rn : Reg) (newBase : Option Word) (s : State) :
    s.Leads (s.writeBlockBase rn newBase) := by
  unfold State.writeBlockBase
  split
  · exact .refl
  · exact (State.does_setReg ..).leads

theorem State.mode_writeBlockBase (rn : Reg) (newBase : Option Word) (s : State) :
    (s.writeBlockBase rn newBase).mode = s.mode := by
  unfold State.writeBlockBase
  split <;> simp

theorem State.executes_loadMultiple {p : LoadBlock} {finish : Block → State → Out} {s : State}
    (bank : s.mode = .usr → p.bank = .usr)
    (h : ∀ b u, s.Leads u → u.mode = s.mode → Yields s.Executes (finish b u)) :
    Yields s.Executes (s.loadMultiple p finish) := by
  have l := State.accessed_loadWords .blockRead s.privileged p.regs p.start .empty s
  unfold State.loadMultiple
  generalize s.loadWords .blockRead s.privileged p.regs p.start .empty = x at l ⊢
  obtain ⟨b, u⟩ := x
  have mode : u.mode = s.mode := l.mode
  have bank' : u.mode = .usr → p.bank = .usr := fun e => bank (mode ▸ e)
  simp only
  split
  · exact yields_refused ..
  · split
    · refine (yields_next ..).2 (.after ?_ (State.executes_takeDataAbort ..))
      exact (l.leads.trans (u.leads_writeLoaded _ _ _ bank')).trans (State.leads_writeBlockBase ..)
    · refine h b _ ((l.leads.trans (u.leads_writeBlockBase p.rn p.newBase)).trans
        (State.leads_writeLoaded _ _ _ _ ?_)) ?_
      · rw [State.mode_writeBlockBase]; exact bank'
      · obtain ⟨r, e⟩ := State.writeLoaded_eq p.bank none b.loaded (u.writeBlockBase p.rn p.newBase)
        rw [State.completeLoadBlock, e]
        exact (State.mode_writeBlockBase p.rn p.newBase u).trans mode

theorem executes_endLoad {s u : State} (regs : List Reg) (b : Block) (h : s.Leads u) :
    Yields s.Executes (endLoad regs b u) := by
  unfold endLoad
  split
  · exact State.executes_branchTo h _
  · exact State.executes_advance h

theorem State.executes_storeMultiple {start : Word} {rn : Reg} {newBase : Option Word} {values : List Word}
    {finish : State → State} {s : State} (h : ∀ u, s.Leads u → s.Executes (finish u)) :
    Yields s.Executes (s.storeMultiple start rn newBase values finish) := by
  have l := (State.accessed_storeWords .blockWrite s.privileged values start .empty s).leads
  unfold State.storeMultiple
  generalize s.storeWords .blockWrite s.privileged values start .empty = x at l ⊢
  obtain ⟨b, u⟩ := x
  have w := l.trans (u.leads_writeBlockBase rn newBase)
  simp only
  split
  · exact yields_refused ..
  · split
    · exact (yields_next ..).2 (.after w (State.executes_takeDataAbort ..))
    · exact (yields_next ..).2 (h _ w)

/-- Going on after a transfer with `^`, which begins the hazard of R586. -/
theorem State.leads_advance_userBank (s : State) : s.Leads { s.advance with userBank := true } :=
  .head .advance (State.Does.aside s.cp14 s.coproc s.calls s.draws true).leads

theorem executes_ldm (m : BlockMode) (c : Cond) (sf wb : Bool) (rn : Reg) (list : BitVec 16) (s : State) :
    Yields s.Executes (execLdm m c sf wb rn list s) := by
  refine executes_conditional ?_
  simp only
  have bank : s.mode = .usr → (if (sf && !list.getLsbD 15) = true then Mode.usr else s.mode) = .usr :=
    fun e => by split <;> [rfl; exact e]
  split
  · split
    · split
      · exact yields_refused ..
      · exact State.executes_loadMultiple bank fun b u h _ => executes_after h (State.executes_returnTo ..)
    · split
      · exact yields_refused ..
      · exact State.executes_loadMultiple bank fun b u h _ =>
          (yields_next ..).2 (.completes (h.trans u.leads_advance_userBank))
  · exact State.executes_loadMultiple bank fun b u h _ => executes_endLoad _ b h

theorem executes_stm (m : BlockMode) (c : Cond) (sf wb : Bool) (rn : Reg) (list : BitVec 16) (s : State) :
    Yields s.Executes (execStm m c sf wb rn list s) := by
  refine executes_conditional ?_
  simp only
  split
  · split
    · exact yields_refused ..
    · exact State.executes_storeMultiple fun u h => .completes (h.trans u.leads_advance_userBank)
  · exact State.executes_storeMultiple fun u h => .completes (.tail h .advance)

/-- PUSH, POP, STMIA and LDMIA of Thumb state load and store the current mode's registers. -/
theorem executes_thumbLoads {broken : Option Restriction} {p : State → LoadBlock} {regs : List Reg}
    (s : State) (bank : (p s).bank = s.mode) :
    Yields s.Executes (s.unconditional broken fun s => s.loadMultiple (p s) (endLoad regs)) :=
  executes_unconditional
    (State.executes_loadMultiple (fun e => bank.trans e) fun b _ h _ => executes_endLoad _ b h)

theorem executes_thumbStores {broken : Option Restriction} {start newBase : State → Word} {rn : Reg}
    {values : State → List Word} (s : State) :
    Yields s.Executes (s.unconditional broken fun s =>
      s.storeMultiple (start s) rn (some (newBase s)) (values s) State.advance) :=
  executes_unconditional (State.executes_storeMultiple fun _ h => .completes (.tail h .advance))

/-! ## Coprocessors -/

theorem executes_offered {cp : BitVec 4} {effect : CoprocReply → State → Out} {s : State}
    (h : ∀ r u, s.Leads u → Yields s.Executes (effect r u)) : Yields s.Executes (s.offered cp effect) := by
  have o : s.Leads (s.offer cp).2 := by
    unfold State.offer
    split
    · split
      · exact .refl
      · exact (State.Does.aside ..).leads
    · exact .refl
  unfold State.offered
  generalize s.offer cp = x at o ⊢
  obtain ⟨r, u⟩ := x
  simp only
  split
  · exact (yields_next ..).2 (.after o (State.executes_enter ..))
  · exact (yields_next ..).2 (.completes o)
  · exact h r u o

theorem executes_endTransfer {s : State} {x : Got Unit × State} (h : s.Leads x.2) :
    Yields s.Executes (endTransfer x) := by
  obtain ⟨_ | i | r, u⟩ := x
  · exact State.executes_advance h
  · exact (yields_next ..).2 (.after h (State.executes_takeDataAbort ..))
  · exact yields_refused ..

theorem State.leads_loadCoproc (cp crd : BitVec 4) (n : Bool) (opt : Option (BitVec 8)) (count k : Nat)
    (a : Word) (s : State) : s.Leads (s.loadCoproc cp crd n opt count k a).2 := by
  induction count generalizing s k a with
  | zero => exact .refl
  | succ count ih =>
    have l := (s.accessed_load (loadKind k) .word s.privileged a).leads
    unfold State.loadCoproc
    generalize s.load (loadKind k) .word s.privileged a = x at l ⊢
    obtain ⟨w | i | r, u⟩ := x
    · exact (l.trans (State.does_call ..).leads).trans (ih ..)
    · exact l
    · exact l

theorem State.leads_storeCoproc (cp crd : BitVec 4) (n : Bool) (opt : Option (BitVec 8)) (vs : List Word)
    (k : Nat) (a : Word) (s : State) : s.Leads (s.storeCoproc cp crd n opt vs k a).2 := by
  induction vs generalizing s k a with
  | nil => exact .refl
  | cons v rest ih =>
    have l := (s.does_call (.storeWord cp crd n opt k)).leads.trans
      (State.accessed_store .write .word s.privileged a v _).leads
    unfold State.storeCoproc
    generalize (s.call (.storeWord cp crd n opt k)).store .write .word s.privileged a v = x at l ⊢
    obtain ⟨_ | i | r, u⟩ := x
    · exact l.trans (ih ..)
    · exact l
    · exact l

theorem State.leads_coprocBase (p up wb : Bool) (rn : Reg) (off : BitVec 8) (s : State) :
    s.Leads (s.coprocBase p up wb rn off).2 := by
  unfold State.coprocBase
  simp only
  split
  · exact (State.does_setReg ..).leads
  · exact .refl

theorem executes_ldc (c : Cond) (p up n wb : Bool) (rn : Reg) (crd cp : BitVec 4) (off : BitVec 8)
    (s : State) : Yields s.Executes (execArmLdc c p up n wb rn crd cp off s) :=
  executes_conditional (executes_offered fun _ u h => executes_endTransfer
    ((h.trans (u.leads_coprocBase p up wb rn off)).trans (State.leads_loadCoproc ..)))

theorem executes_stc (c : Cond) (p up n wb : Bool) (rn : Reg) (crd cp : BitVec 4) (off : BitVec 8)
    (s : State) : Yields s.Executes (execArmStc c p up n wb rn crd cp off s) :=
  executes_conditional (executes_offered fun _ u h => executes_endTransfer
    ((h.trans (u.leads_coprocBase p up wb rn off)).trans (State.leads_storeCoproc ..)))

theorem executes_cdp (c : Cond) (op1 crn crd cp : BitVec 4) (op2 : BitVec 3) (crm : BitVec 4) (s : State) :
    Yields s.Executes (execArmCdp c op1 crn crd cp op2 crm s) :=
  executes_conditional (executes_offered fun _ _ h =>
    State.executes_advance (.tail h (State.does_call ..)))

theorem State.executes_mcr15 (op1 : BitVec 3) (crn crm : BitVec 4) (op2 : BitVec 3) (v : Word) (s : State) :
    Yields s.Executes (s.mcr15 op1 crn crm op2 v) := by
  unfold State.mcr15
  split
  · rename_i may
    split
    · rename_i t h
      exact State.executes_advance (State.Does.configure may (State.cp15Write_configures h)).leads
    · exact yields_refused ..
  · exact (yields_next ..).2 (State.executes_enter ..)

theorem State.executes_mcr14 (op1 : BitVec 3) (crn crm : BitVec 4) (op2 : BitVec 3) (v : Word) (s : State) :
    Yields s.Executes (s.mcr14 op1 crn crm op2 v) := by
  unfold State.mcr14
  split
  · exact State.executes_advance (State.Does.aside ..).leads
  · exact (yields_next ..).2 (State.executes_enter ..)

theorem executes_mcr (c : Cond) (op1 : BitVec 3) (crn : BitVec 4) (rd : Reg) (cp : BitVec 4) (op2 : BitVec 3)
    (crm : BitVec 4) (s : State) : Yields s.Executes (execArmMcr c op1 crn rd cp op2 crm s) := by
  refine executes_conditional ?_
  split
  · exact State.executes_mcr15 ..
  · split
    · exact State.executes_mcr14 ..
    · exact executes_offered fun _ _ h => State.executes_advance (.tail h (State.does_call ..))

theorem State.executes_endMrc {s u : State} (rd : Reg) (v : Word) (h : s.Leads u) :
    Yields s.Executes (u.endMrc rd v) := by
  unfold State.endMrc
  split
  · exact State.executes_advance (.tail h (State.does_setFlags ..))
  · exact State.executes_advance (.tail h (State.does_setReg ..))

theorem State.configures_noteRead (crn : BitVec 4) (v : Word) (s : State) :
    s.Configures (s.noteRead crn v) := by
  unfold State.noteRead
  split
  · exact State.configures_cp15 rfl
  · exact ⟨rfl, rfl, rfl, id⟩

/-- A read of CP15 draws a free value and notes the value read (R43, R365). -/
theorem State.cp15Read_ok {op1 : BitVec 3} {crn crm : BitVec 4} {op2 : BitVec 3} {s t : State} {v : Word}
    (h : s.cp15Read op1 crn crm op2 = .ok (v, t)) :
    s.draw.2.cp15Value op1 crn crm op2 s.draw.1 = .ok v ∧ t = s.draw.2.noteRead crn v := by
  unfold State.cp15Read at h
  simp only at h
  split at h
  · rename_i w e
    cases h
    exact ⟨e, rfl⟩
  · cases h

theorem State.executes_mrc15 (op1 : BitVec 3) (crn crm : BitVec 4) (op2 : BitVec 3) (rd : Reg) (s : State) :
    Yields s.Executes (s.mrc15 op1 crn crm op2 rd) := by
  unfold State.mrc15
  split
  · rename_i may
    split
    · rename_i v t h
      rw [(State.cp15Read_ok h).2]
      exact State.executes_endMrc rd v
        (.tail s.does_draw.leads (.configure may (State.configures_noteRead ..)))
    · exact yields_refused ..
  · exact (yields_next ..).2 (State.executes_enter ..)

theorem State.executes_mrc14 (op1 : BitVec 3) (crn crm : BitVec 4) (op2 : BitVec 3) (rd : Reg) (s : State) :
    Yields s.Executes (s.mrc14 op1 crn crm op2 rd) := by
  unfold State.mrc14
  split
  · exact State.executes_endMrc _ _ (State.Does.aside ..).leads
  · exact (yields_next ..).2 (State.executes_enter ..)

theorem executes_mrc (c : Cond) (op1 : BitVec 3) (crn : BitVec 4) (rd : Reg) (cp : BitVec 4) (op2 : BitVec 3)
    (crm : BitVec 4) (s : State) : Yields s.Executes (execArmMrc c op1 crn rd cp op2 crm s) := by
  refine executes_conditional ?_
  split
  · exact State.executes_mrc15 ..
  · split
    · exact State.executes_mrc14 ..
    · exact executes_offered fun _ _ h => State.executes_endMrc _ _ (.tail h (State.does_call ..))

end Sys2Proof.Machine
end

section
namespace Sys2Proof.Machine

/-! ## Every instruction -/

/-- One case a template of meanings. -/
theorem exec_executes (i : Instr) (s : State) : Yields s.Executes (exec i s) := by
  unfold exec
  cases i with
  | armAnd | armEor | armSub | armRsb | armAdd | armAdc | armSbc | armRsc | armOrr | armMov | armBic
  | armMvn => exact executes_dataProc ..
  | armTst | armTeq | armCmp | armCmn => exact executes_dataTest ..
  | armMul | armMla => exact executes_multiply ..
  | armUmull | armUmlal | armSmull | armSmlal => exact executes_multiplyLong ..
  | armSwp | armSwpb => exact executes_conditional (State.executes_swap ..)
  | armMrs => exact executes_mrs ..
  | armMsrReg | armMsrImm => exact executes_conditional (State.executes_msr ..)
  | armBx => exact executes_conditional (State.executes_exchange ..)
  | armB | thumbBCond => exact executes_conditional (State.executes_branchTo .refl _)
  | armBl =>
    exact executes_conditional (State.executes_branchTo (State.does_setReg ..).leads _)
  | armLdr | armLdrb | armLdrt | armLdrbt | armLdrsb => exact executes_conditional (State.executes_loadTo ..)
  | armStr | armStrb | armStrt | armStrbt => exact executes_conditional (State.executes_storeFrom ..)
  | armStrh => exact executes_conditional (State.executes_storeHalf ..)
  | armLdrh | armLdrsh => exact executes_conditional (State.executes_loadHalfTo ..)
  | armLdmia | armLdmib | armLdmda | armLdmdb => exact executes_ldm ..
  | armStmia | armStmib | armStmda | armStmdb => exact executes_stm ..
  | armSwi | armUndefMedia | armUndefMsr =>
    exact executes_conditional ((yields_next ..).2 (State.executes_enter ..))
  | armCdp => exact executes_cdp ..
  | armLdc => exact executes_ldc ..
  | armStc => exact executes_stc ..
  | armMcr => exact executes_mcr ..
  | armMrc => exact executes_mrc ..
  | thumbLslImm | thumbLsrImm | thumbAsrImm | thumbAddReg | thumbSubReg | thumbAddImm3 | thumbSubImm3
  | thumbMovImm | thumbAddImm8 | thumbSubImm8 | thumbAnd | thumbEor | thumbLslReg | thumbLsrReg
  | thumbAsrReg | thumbAdc | thumbSbc | thumbRor | thumbNeg | thumbOrr | thumbBic | thumbMvn =>
    exact executes_thumbWrite ..
  | thumbCmpImm | thumbTst | thumbCmpReg | thumbCmn => exact executes_thumbTest ..
  | thumbMul =>
    exact executes_unconditional (executes_after s.does_draw.leads (executes_thumbWrite ..))
  | thumbAddHi | thumbMovHi => exact executes_unconditional (State.executes_finish .refl ..)
  | thumbCmpHi => exact executes_unconditional (executes_thumbTest ..)
  | thumbBx => exact State.executes_exchange ..
  | thumbLdrPc | thumbLdrReg | thumbLdrbReg | thumbLdrsbReg | thumbLdrImm | thumbLdrbImm | thumbLdrSp =>
    exact State.executes_loadTo ..
  | thumbStrReg | thumbStrbReg | thumbStrImm | thumbStrbImm | thumbStrSp => exact State.executes_storeFrom ..
  | thumbStrhReg | thumbStrhImm => exact State.executes_storeHalf ..
  | thumbLdrhReg | thumbLdrshReg | thumbLdrhImm => exact State.executes_loadHalfTo ..
  | thumbAddPc | thumbAddSp | thumbIncSp | thumbDecSp | thumbBlHigh =>
    exact State.executes_advance (State.does_setReg ..).leads
  | thumbPush | thumbStmia => exact executes_thumbStores s
  | thumbPop | thumbLdmia => exact executes_thumbLoads s rfl
  | thumbB => exact State.executes_branchTo .refl _
  | thumbBlLow => exact State.executes_branchTo (State.does_setReg ..).leads _
  | thumbSwi | thumbUndefB | thumbUndefDe | thumbUndefE8 =>
    exact (yields_next ..).2 (State.executes_enter ..)

end Sys2Proof.Machine
end

section
namespace Sys2Proof.Machine

/-! ## The boundary and the fetch -/

/-- What fetches leave as it is: all but the memory system, the watchpoint units' CHAINOUT, the prefetched
instructions and the Thumb prefetch buffer. -/
structure State.Fetches (s t : State) : Prop where
  same : t = { s with memsys := t.memsys, dbg := t.dbg, pipe := t.pipe, thumbBuffer := t.thumbBuffer }
  served : s.memsys.Served t.memsys
  ack : t.dbg.ack = s.dbg.ack
  undebugged : s.pins.dbgen = false → t.dbg = s.dbg

theorem State.Fetches.refl (s : State) : s.Fetches s := ⟨rfl, .refl _, rfl, fun _ => rfl⟩

theorem State.Fetches.pins {s t : State} (h : s.Fetches t) : t.pins = s.pins := by rw [h.same]

theorem State.Fetches.trans {s t u : State} (x : s.Fetches t) (y : t.Fetches u) : s.Fetches u :=
  ⟨y.same.trans (by rw [x.same]), x.served.trans y.served, y.ack.trans x.ack,
    fun h => (y.undebugged (by rw [x.pins]; exact h)).trans (x.undebugged h)⟩

theorem State.Fetches.with_pipe {s t : State} (h : s.Fetches t) (p : List Fetched) :
    s.Fetches { t with pipe := p } :=
  ⟨congrArg (fun u : State => { u with pipe := p }) h.same, h.served, h.ack, h.undebugged⟩

theorem State.fetches_compare (y : BusCycle) (s : State) : s.Fetches (s.compare y).2 := by
  unfold State.compare
  split
  · rename_i on
    exact ⟨rfl, .refl _, rfl, fun off => absurd (on.symm.trans off) (by decide)⟩
  · exact .refl s

theorem State.fetches_fetchWord (va : Word) (s : State) : s.Fetches (s.fetchWord va).2 := by
  have m := MemSys.served_read s.platform.bigEndian s.cp15 .fetch .word s.privileged va s.memsys
  unfold State.fetchWord
  split
  · exact .refl s
  · generalize s.memsys.read s.platform.bigEndian s.cp15 .fetch .word s.privileged va = x at m ⊢
    obtain ⟨got, ms⟩ := x
    simp only
    split
    · exact ⟨rfl, ⟨m.canonical, m.buffer, m.tests⟩, rfl, fun _ => rfl⟩
    · exact ⟨rfl, m, rfl, fun _ => rfl⟩

theorem State.fetches_fetch (va : Word) (s : State) : s.Fetches (s.fetch va).2 := by
  have w := s.fetches_fetchWord va
  unfold State.fetch
  generalize s.fetchWord va = x at w ⊢
  obtain ⟨got | i | r, u⟩ := x
  · exact w.trans (u.fetches_compare _)
  · exact w.trans (u.fetches_compare _)
  · exact w

/-- A fetch leaves the prefetched instructions as they are. -/
theorem State.fetch_pipe (va : Word) (s : State) : (s.fetch va).2.pipe = s.pipe := by
  have compare (y : BusCycle) (u : State) : (u.compare y).2.pipe = u.pipe := by
    unfold State.compare
    split <;> rfl
  have w : (s.fetchWord va).2.pipe = s.pipe := by
    unfold State.fetchWord
    split
    · rfl
    · simp only
      split <;> rfl
  unfold State.fetch
  generalize s.fetchWord va = x at w ⊢
  obtain ⟨got | i | r, u⟩ := x
  · exact (compare _ u).trans w
  · exact (compare _ u).trans w
  · exact w

theorem State.fetches_fillPipe (n : Nat) (s : State) : s.Fetches (s.fillPipe n) := by
  induction n generalizing s with
  | zero => exact .refl s
  | succ n ih =>
    have f := s.fetches_fetch (s.pc + s.len * BitVec.ofNat 32 s.pipe.length)
    unfold State.fillPipe
    generalize s.fetch (s.pc + s.len * BitVec.ofNat 32 s.pipe.length) = x at f ⊢
    obtain ⟨head, u⟩ := x
    exact (f.with_pipe (u.pipe ++ [head])).trans (ih _)

/-- Fetches append to the prefetched instructions. -/
theorem State.fillPipe_pipe (n : Nat) (s : State) :
    ∃ l : List Fetched, l.length = n ∧ (s.fillPipe n).pipe = s.pipe ++ l := by
  induction n generalizing s with
  | zero => exact ⟨[], rfl, (List.append_nil _).symm⟩
  | succ n ih =>
    have p := s.fetch_pipe (s.pc + s.len * BitVec.ofNat 32 s.pipe.length)
    unfold State.fillPipe
    generalize s.fetch (s.pc + s.len * BitVec.ofNat 32 s.pipe.length) = x at p ⊢
    obtain ⟨head, u⟩ := x
    have p : u.pipe = s.pipe := p
    obtain ⟨l, length, e⟩ := ih { u with pipe := u.pipe ++ [head] }
    exact ⟨head :: l, by rw [List.length_cons, length], by rw [e]; simp [p]⟩

theorem State.fetches_prefetch (s : State) : s.Fetches s.prefetch := s.fetches_fillPipe _

/-- The pipeline reaches two instructions beyond the one that executes (R73). -/
theorem State.prefetch_length (s : State) (h : s.pipe.length ≤ 3) : s.prefetch.pipe.length ≤ 3 := by
  obtain ⟨l, length, e⟩ := s.fillPipe_pipe (3 - s.pipe.length)
  rw [State.prefetch, e, List.length_append]
  omega

/-! ## The instruction at the head of the pipeline -/

theorem State.executes_execute (w : Word) (s : State) : Yields s.Executes (s.execute w) := by
  have goesOn (u : State) : u.Leads { u with userBank := false } :=
    (State.Does.aside u.cp14 u.coproc u.calls u.draws false).leads
  unfold State.execute
  split
  · split
    · exact yields_refused ..
    · exact (yields_next ..).2 (.completes (.head .advance (goesOn _)))
  · rename_i i _
    unfold State.runInstr
    split
    · exact yields_refused ..
    · exact executes_after (goesOn s) (exec_executes i _)

/-- What the core does at one instruction boundary (R506). -/
inductive State.CoreSteps (s : State) : State → Prop
  /-- In debug state, nothing. -/
  | rests : CoreSteps s s
  /-- Debug entry, for a remembered watchpoint or a request. -/
  | entersDebug (on : s.pins.dbgen = true) : CoreSteps s s.enterDebugPending
  /-- An interrupt. -/
  | interrupted (e : Exc) (ret : Word) : CoreSteps s (s.enter e ret)
  /-- The instruction at the head of the pipeline, its abort, or a monitor-mode breakpoint. -/
  | runs {t : State} (running : s.dbg.ack = false) (h : s.prefetch.Executes t) : CoreSteps s t
  /-- A halt-mode breakpoint. -/
  | breaks : CoreSteps s (s.prefetch.enterDebug .breakpoint 4)

theorem State.breakpointed_cases (w : Word) (s : State) :
    s.Executes (s.breakpointed w) ∨ s.breakpointed w = s.enterDebug .breakpoint 4 := by
  unfold State.breakpointed
  split
  · left
    split
    · exact State.executes_takePrefetchAbort ..
    · simp only
      split
      · exact .after s.does_draw.leads (State.executes_takePrefetchAbort ..)
      · exact .completes (.head s.does_draw (.head .advance
          (State.Does.aside s.cp14 s.coproc s.calls (s.draws + 1) false).leads))
  · exact .inr rfl

theorem State.interrupt_cases {s t : State} (h : s.interrupt = some t) : ∃ e ret, t = s.enter e ret := by
  unfold State.interrupt at h
  split at h
  · exact ⟨_, _, (Option.some.inj h).symm⟩
  · split at h
    · exact ⟨_, _, (Option.some.inj h).symm⟩
    · exact absurd h (by simp)

theorem State.coreSteps_runNext (s : State) (running : s.dbg.ack = false) :
    Yields s.CoreSteps s.runNext := by
  unfold State.runNext
  simp only
  split
  · exact (yields_next ..).2 (.runs running (.completes .refl))
  · rename_i f _ _
    unfold State.runHead
    split
    · exact yields_refused ..
    · exact (yields_next ..).2 (.runs running (State.executes_takePrefetchAbort ..))
    · rename_i w _
      split
      · refine (yields_next ..).2 ?_
        obtain h | h := State.breakpointed_cases w s.prefetch
        · exact .runs running h
        · rw [h]; exact .breaks
      · exact (State.executes_execute w s.prefetch).mono fun _ h => .runs running h

theorem State.coreSteps_coreStep (s : State) : Yields s.CoreSteps s.coreStep := by
  unfold State.coreStep
  split
  · exact yields_fault ..
  · split
    · exact (yields_next ..).2 .rests
    · rename_i ack
      split
      · rename_i on
        refine (yields_next ..).2 (.entersDebug ?_)
        simp only [State.debugRequested] at on
        grind
      · split
        · exact yields_refused ..
        · split
          · rename_i h
            obtain ⟨e, ret, rfl⟩ := State.interrupt_cases h
            exact (yields_next ..).2 (.interrupted e ret)
          · exact s.coreSteps_runNext (by simpa using ack)

end Sys2Proof.Machine
end

section
/-! # The invariant -/

namespace Sys2Proof.Machine

/-! ## Aligned program counters (R26) -/

/-- The length of an instruction in a state (R209). -/
def instrBytes (thumb : Bool) : Nat := if thumb then 2 else 4

theorem State.len_eq (s : State) : s.len = BitVec.ofNat 32 (instrBytes s.thumb) := by
  unfold State.len instrBytes
  split <;> rfl

theorem alignPc_toNat (thumb : Bool) (v : Word) :
    (alignPc thumb v).toNat = v.toNat / instrBytes thumb * instrBytes thumb := by
  have shifted (k : Nat) (m : Word) (hk : k ≤ 2) (h : ∀ i < 32, m.getLsbD i = decide (k ≤ i)) :
      v &&& m = (v >>> k) <<< k := by
    apply BitVec.eq_of_getLsbD_eq
    intro i hi
    rw [BitVec.getLsbD_and, h i hi, BitVec.getLsbD_shiftLeft, BitVec.getLsbD_ushiftRight]
    by_cases ki : k ≤ i
    · simp [ki, hi, show ¬ i < k by omega, show k + (i - k) = i by omega]
    · simp [ki, show i < k by omega]
  have := v.isLt
  cases thumb with
  | true =>
    have e : alignPc true v = (v >>> 1) <<< 1 := shifted 1 _ (by omega) (by decide)
    rw [e, BitVec.toNat_shiftLeft, BitVec.toNat_ushiftRight, Nat.shiftRight_eq_div_pow, Nat.shiftLeft_eq]
    show _ = v.toNat / 2 * 2
    omega
  | false =>
    have e : alignPc false v = (v >>> 2) <<< 2 := shifted 2 _ (by omega) (by decide)
    rw [e, BitVec.toNat_shiftLeft, BitVec.toNat_ushiftRight, Nat.shiftRight_eq_div_pow, Nat.shiftLeft_eq]
    show _ = v.toNat / 4 * 4
    omega

/-- An aligned address is a multiple of the length of an instruction. -/
theorem alignPc_eq_self_iff (thumb : Bool) (v : Word) : alignPc thumb v = v ↔ instrBytes thumb ∣ v.toNat := by
  rw [← BitVec.toNat_inj, alignPc_toNat]
  exact ⟨fun h => Dvd.intro_left _ h, Nat.div_mul_cancel⟩

theorem alignPc_alignPc (thumb : Bool) (v : Word) : alignPc thumb (alignPc thumb v) = alignPc thumb v := by
  rw [alignPc_eq_self_iff, alignPc_toNat]
  exact Nat.dvd_mul_left ..

/-- An aligned address a number of instructions further is aligned. -/
theorem alignPc_add_len (s : State) (v : Word) (n : Nat) (h : alignPc s.thumb v = v) :
    alignPc s.thumb (v + s.len * BitVec.ofNat 32 n) = v + s.len * BitVec.ofNat 32 n := by
  rw [alignPc_eq_self_iff] at h ⊢
  have wraps : instrBytes s.thumb ∣ 2 ^ 32 := by
    unfold instrBytes
    split <;> decide
  rw [s.len_eq, BitVec.toNat_add, BitVec.toNat_mul, BitVec.toNat_ofNat, BitVec.toNat_ofNat]
  have len : instrBytes s.thumb ∣ instrBytes s.thumb % 2 ^ 32 * (n % 2 ^ 32) % 2 ^ 32 :=
    (Nat.dvd_mod_iff wraps).2 (Dvd.dvd.mul_right ((Nat.dvd_mod_iff wraps).2 dvd_rfl) _)
  exact (Nat.dvd_mod_iff wraps).2 (Nat.dvd_add h len)

theorem alignPc_add_one_len (s : State) (v : Word) (h : alignPc s.thumb v = v) :
    alignPc s.thumb (v + s.len) = v + s.len := by
  simpa using alignPc_add_len s v 1 h

/-! ## Legal modes (R35) -/

theorem legalMode_congr {a b : Word} (h : a.extractLsb' 0 5 = b.extractLsb' 0 5) : legalMode a = legalMode b := by
  unfold legalMode modeField
  rw [h]

/-- Fields of words that agree in their low bits. -/
theorem extract_congr {a b : Word} {n : Nat} (h : a.extractLsb' 0 n = b.extractLsb' 0 n) (k m : Nat)
    (le : k + m ≤ n) : a.extractLsb' k m = b.extractLsb' k m := by
  have f := congrArg (BitVec.extractLsb' k m) h
  rwa [extract_extract _ _ _ _ _ le, extract_extract _ _ _ _ _ le, Nat.zero_add] at f

theorem getLsbD_congr {a b : Word} {n : Nat} (h : a.extractLsb' 0 n = b.extractLsb' 0 n) {k : Nat}
    (lt : k < n) : a.getLsbD k = b.getLsbD k := by
  have f := congrArg (fun x => BitVec.getLsbD x k) h
  simpa [lt] using f

theorem legalMode_exceptionCpsr (e : Exc) (psr : Word) : legalMode (exceptionCpsr e psr) = true := by
  have h : modeField (exceptionCpsr e psr) = e.mode.bits := by
    apply BitVec.eq_of_getLsbD_eq
    intro i hi
    simp [modeField, exceptionCpsr_getLsbD, hi]
  unfold legalMode
  rw [h]
  cases e <;> rfl

theorem State.modeField_setThumb (b : Bool) (s : State) :
    modeField (s.setThumb b).cpsr = modeField s.cpsr := by
  unfold State.setThumb modeField
  simp only
  rw [extract_append_low _ _ _ _ (by omega), extract_extract _ _ _ _ _ (by omega)]

/-! ## What keeps the invariant -/

theorem State.Inv.legal {s : State} (i : s.Inv) : s.cp15.Legal := ⟨i.control, i.cacheOff⟩

/-- The parts of the machine the invariant speaks of are as they were, or nothing is prefetched. -/
structure State.SameCore (s t : State) : Prop where
  memsys : t.memsys = s.memsys
  cpsr : t.cpsr = s.cpsr
  pc : t.pc = s.pc
  cp15 : t.cp15 = s.cp15
  pipe : t.pipe = s.pipe ∨ t.pipe = []

theorem State.SameCore.inv {s t : State} (h : s.SameCore t) (i : s.Inv) : t.Inv := by
  refine ⟨?_, ?_, ?_, ?_, ?_, ?_, ?_⟩
  · rw [h.memsys]; exact i.canonical
  · rw [h.memsys]; exact i.buffer
  · rw [h.cpsr]; exact i.mode
  · unfold State.thumb
    rw [h.cpsr, h.pc]
    exact i.aligned
  · rw [h.cp15]; exact i.control
  · rw [h.cp15]; exact i.cacheOff
  · obtain e | e := h.pipe <;> rw [e]
    · exact i.prefetched
    · exact Nat.zero_le 3

theorem State.sameCore_setSpsrOf (m : Mode) (v : Word) (s : State) : s.SameCore (s.setSpsrOf m v) := by
  constructor <;> simp

theorem State.inv_advance {s : State} (i : s.Inv) : s.advance.Inv where
  canonical := i.canonical
  buffer := i.buffer
  mode := i.mode
  aligned := alignPc_add_one_len s s.pc i.aligned
  control := i.control
  cacheOff := i.cacheOff
  prefetched := by
    have := i.prefetched
    simp only [State.advance, List.length_tail]
    omega

/-- A branch aligns its target for the state it goes on in (R28). -/
theorem State.inv_branchTo {s t : State} (i : s.Inv) (v : Word) (memsys : t.memsys = s.memsys)
    (cp15 : t.cp15 = s.cp15) (mode : legalMode t.cpsr = true) : (t.branchTo v).Inv where
  canonical := by rw [State.branchTo_memsys, memsys]; exact i.canonical
  buffer := by rw [State.branchTo_memsys, memsys]; exact i.buffer
  mode := mode
  aligned := alignPc_alignPc t.thumb v
  control := by rw [State.branchTo_cp15, cp15]; exact i.control
  cacheOff := by rw [State.branchTo_cp15, cp15]; exact i.cacheOff
  prefetched := Nat.zero_le 3

theorem State.inv_accessed {s t : State} (h : s.Accessed t) (i : s.Inv) : t.Inv := by
  rw [h.same]
  exact ⟨h.served.canonical i.canonical, h.served.buffer i.buffer, i.mode, i.aligned, i.control, i.cacheOff,
    i.prefetched⟩

theorem State.inv_configures {s t : State} (h : s.Configures t) (i : s.Inv) : t.Inv := by
  have legal := h.legal i.legal
  have canonical : t.memsys.mem.wf = true := by rw [h.mem]; exact i.canonical
  have buffer : t.memsys.wbuf.length ≤ 8 := by rw [h.wbuf]; exact i.buffer
  rw [h.same]
  exact ⟨canonical, buffer, i.mode, i.aligned, legal.control, legal.cacheOff, i.prefetched⟩

/-- A CPSR written with a legal mode and T as it was. -/
theorem State.inv_status {s : State} (i : s.Inv) {psr : Word} (legal : legalMode psr = true)
    (state : psr.getLsbD 5 = s.cpsr.getLsbD 5) : State.Inv { s with cpsr := psr } where
  canonical := i.canonical
  buffer := i.buffer
  mode := legal
  aligned := by
    have t : State.thumb { s with cpsr := psr } = s.thumb := state
    rw [t]
    exact i.aligned
  control := i.control
  cacheOff := i.cacheOff
  prefetched := i.prefetched

theorem State.Does.inv {s t : State} (h : s.Does t) (i : s.Inv) : t.Inv := by
  cases h with
  | access h => exact State.inv_accessed h i
  | regs r h => exact State.SameCore.inv (s := s) ⟨rfl, rfl, rfl, rfl, .inl rfl⟩ i
  | flags psr h =>
    exact State.inv_status i ((legalMode_congr (extract_congr h 0 5 (by omega))).trans i.mode)
      (getLsbD_congr h (by omega))
  | status psr may legal state => exact State.inv_status i legal state
  | saved v h => exact (State.sameCore_setSpsrOf ..).inv i
  | advance => exact State.inv_advance i
  | branch v => exact State.inv_branchTo i v rfl rfl i.mode
  | exchange b v =>
    exact State.inv_branchTo i v rfl rfl ((legalMode_congr (s.modeField_setThumb b)).trans i.mode)
  | restore psr v h legal => exact State.inv_branchTo i v rfl rfl legal
  | stuck k => exact State.SameCore.inv (s := s) ⟨rfl, rfl, rfl, rfl, .inl rfl⟩ i
  | fault fsr far => exact State.inv_configures (State.configures_cp15 rfl) i
  | aside => exact State.SameCore.inv (s := s) ⟨rfl, rfl, rfl, rfl, .inl rfl⟩ i
  | configure may h => exact State.inv_configures h i

theorem State.Leads.inv {s t : State} (h : s.Leads t) (i : s.Inv) : t.Inv := by
  induction h with
  | refl => exact i
  | tail _ d ih => exact d.inv ih

/-- A vector is word-aligned, and an exception leaves Thumb state (R502, R503). -/
theorem State.inv_enter {s : State} (i : s.Inv) (e : Exc) (ret : Word) : (s.enter e ret).Inv where
  canonical := by rw [State.enter_memsys]; exact i.canonical
  buffer := by rw [State.enter_memsys]; exact i.buffer
  mode := by rw [State.enter_cpsr]; exact legalMode_exceptionCpsr ..
  aligned := by
    rw [(State.entered e ret s).thumb, State.enter_pc]
    unfold Cp15.vectorBase
    cases e <;> split <;> rfl
  control := by rw [State.enter_cp15]; exact i.control
  cacheOff := by rw [State.enter_cp15]; exact i.cacheOff
  prefetched := Nat.zero_le 3

theorem State.Executes.inv {s t : State} (h : s.Executes t) (i : s.Inv) : t.Inv := by
  cases h with
  | completes h => exact State.Leads.inv h i
  | enters h e ret => exact State.inv_enter (State.Leads.inv h i) e ret

/-! ## One instruction boundary -/

theorem State.inv_fetches {s t : State} (h : s.Fetches t) (i : s.Inv) (length : t.pipe.length ≤ 3) :
    t.Inv := by
  rw [h.same]
  exact ⟨h.served.canonical i.canonical, h.served.buffer i.buffer, i.mode, i.aligned, i.control, i.cacheOff,
    length⟩

theorem State.inv_prefetch {s : State} (i : s.Inv) : s.prefetch.Inv :=
  State.inv_fetches s.fetches_prefetch i (s.prefetch_length i.prefetched)

theorem State.inv_enterDebug {s : State} (i : s.Inv) (cause : DebugCause) (slots : Nat) :
    (s.enterDebug cause slots).Inv where
  canonical := i.canonical
  buffer := i.buffer
  mode := i.mode
  aligned := alignPc_add_len s s.pc (slots - 1) i.aligned
  control := i.control
  cacheOff := i.cacheOff
  prefetched := Nat.zero_le 3

theorem State.inv_enterDebugPending {s : State} (i : s.Inv) : s.enterDebugPending.Inv := by
  have vector : s.fetchAbortVector.Inv := by
    unfold State.fetchAbortVector
    split
    · exact State.inv_fetches (s.fetches_fetch s.pc) i (by rw [State.fetch_pipe]; exact i.prefetched)
    · exact i
  unfold State.enterDebugPending
  simp only
  split
  · rename_i t h
    obtain ⟨e, ret, rfl⟩ := State.interrupt_cases h
    exact State.inv_enterDebug (State.inv_enter vector e ret) ..
  · exact State.inv_enterDebug vector ..

theorem State.CoreSteps.inv {s t : State} (h : s.CoreSteps t) (i : s.Inv) : t.Inv := by
  cases h with
  | rests => exact i
  | entersDebug on => exact State.inv_enterDebugPending i
  | interrupted e ret => exact State.inv_enter i e ret
  | runs running h => exact h.inv (State.inv_prefetch i)
  | breaks => exact State.inv_enterDebug (State.inv_prefetch i) ..

theorem State.inv_coreStep {s : State} (i : s.Inv) : Yields State.Inv s.coreStep :=
  s.coreSteps_coreStep.mono fun _ h => h.inv i

/-! ## The reset input -/

theorem Memory.wf_takeBytes {after m : Memory} (l : List Word) (h : m.wf = true) :
    (Memory.takeBytes after l m).wf = true := by
  induction l generalizing m with
  | nil => exact h
  | cons a rest ih => exact ih (Memory.wf_set h a.isLt)

theorem MemSys.onBus_resetBuffer (big : Bool) (l : List BufferedWrite) (ms : MemSys) :
    ms.OnBus (MemSys.resetBuffer big l ms) := by
  induction l generalizing ms with
  | nil => exact .refl ms
  | cons e rest ih =>
    unfold MemSys.resetBuffer
    simp only
    split
    · exact (ms.onBus_draw.trans (MemSys.onBus_taken ..)).trans (ih _)
    · exact ms.onBus_draw.trans (ih _)

theorem MemSys.onBus_resetReads (priv : Bool) (n : Nat) (pa : Word) (ms : MemSys) :
    ms.OnBus (ms.resetReads priv n pa) := by
  induction n generalizing pa ms with
  | zero => exact .refl ms
  | succ n ih => exact (MemSys.onBus_transfer _ ms).trans (ih ..)

theorem MemSys.warmReset_canonical (big : Bool) {ms : MemSys} (h : ms.mem.wf = true) :
    (ms.warmReset big).mem.wf = true :=
  (MemSys.onBus_resetBuffer big ms.wbuf { ms with wbuf := [] }).canonical h

theorem MemSys.warmReset_wbuf (big : Bool) (ms : MemSys) : (ms.warmReset big).wbuf = [] :=
  (MemSys.onBus_resetBuffer big ms.wbuf { ms with wbuf := [] }).wbuf

theorem State.abandoned_canonical (amid : Option Abandoned) {s : State} (h : s.memsys.mem.wf = true) :
    (s.abandoned amid).memsys.mem.wf = true := by
  unfold State.abandoned
  split
  · exact h
  · split
    · exact Memory.wf_takeBytes _ h
    · exact h

/-! What the reset input leaves in each field the claims speak of (R80, R570). -/

theorem State.warmReset_cpsr (v : Bool) (first : Word) (reads : Nat) (s : State) :
    (s.warmReset v first reads).cpsr = s.cpsr.extractLsb' 8 24 ++ 0xd3#8 := by
  simp [State.warmReset]

theorem State.warmReset_pc (v : Bool) (first : Word) (reads : Nat) (s : State) :
    (s.warmReset v first reads).pc = if v then 0xffff0000 else 0 := rfl

theorem State.warmReset_cp15 (v : Bool) (first : Word) (reads : Nat) (s : State) :
    (s.warmReset v first reads).cp15 =
      { s.cp15 with control := 0#18 ++ flagBit v ++ 0x0070#13, pid := 0, testOn := false } := by
  simp [State.warmReset]

theorem State.warmReset_memsys (v : Bool) (first : Word) (reads : Nat) (s : State) :
    (s.warmReset v first reads).memsys =
      (s.memsys.warmReset s.platform.bigEndian).resetReads s.privileged reads (first &&& 0xfffffffc) := by
  simp [State.warmReset, State.privileged, State.mode]

/-- The CPSR the reset input leaves: Supervisor mode, ARM state, both interrupts masked. -/
theorem resetPsr_getLsbD (psr : BitVec 24) {i : Nat} (h : i < 8) :
    (psr ++ 0xd3#8).getLsbD i = (0xd3#8).getLsbD i := by
  rw [BitVec.getLsbD_append, if_pos h]

theorem modeField_resetPsr (psr : BitVec 24) : modeField (psr ++ 0xd3#8) = Mode.svc.bits := by
  unfold modeField
  rw [extract_append_low _ _ _ _ (by omega)]
  rfl

theorem State.warmReset_thumb (v : Bool) (first : Word) (reads : Nat) (s : State) :
    (s.warmReset v first reads).thumb = false := by
  rw [State.thumb, State.warmReset_cpsr, resetPsr_getLsbD _ (by omega)]
  rfl

/-- Reset makes the invariant anew, but for memory's canonical form, which it keeps. -/
theorem State.inv_warmReset (v : Bool) (first : Word) (reads : Nat) {s : State}
    (h : s.memsys.mem.wf = true) : (s.warmReset v first reads).Inv := by
  have bus := MemSys.onBus_resetReads s.privileged reads (first &&& 0xfffffffc)
    (s.memsys.warmReset s.platform.bigEndian)
  refine ⟨?_, ?_, ?_, ?_, ?_, ?_, Nat.zero_le 3⟩
  · rw [State.warmReset_memsys]
    exact bus.canonical (MemSys.warmReset_canonical _ h)
  · rw [State.warmReset_memsys, bus.wbuf, MemSys.warmReset_wbuf]
    exact Nat.zero_le 8
  · rw [State.warmReset_cpsr, legalMode, modeField_resetPsr]
    rfl
  · rw [State.warmReset_thumb, State.warmReset_pc]
    cases v <;> rfl
  · simp only [State.warmReset_cp15]
    cases v <;> decide
  · simp only [State.warmReset_cp15, Cp15.mmuOn, Cp15.cacheBit, Cp15.bufferBit]
    cases v <;> decide

/-! ## The debugger -/

theorem State.SameCore.refl (s : State) : s.SameCore s := ⟨rfl, rfl, rfl, rfl, .inl rfl⟩

theorem State.sameCore_debug (d : Debug) (s : State) : s.SameCore { s with dbg := d } :=
  ⟨rfl, rfl, rfl, rfl, .inl rfl⟩

theorem State.sameCore_scan2Read (addr : BitVec 5) (s : State) : Yields s.SameCore (s.scan2Read addr) := by
  unfold State.scan2Read
  split
  · exact (yields_next ..).2 (s.sameCore_debug _)
  · exact (yields_next ..).2 ⟨rfl, rfl, rfl, rfl, .inl rfl⟩
  · exact (yields_next ..).2 (s.sameCore_debug _)
  · exact (yields_next ..).2 ⟨rfl, rfl, rfl, rfl, .inl rfl⟩
  · split
    · exact (yields_next ..).2 (s.sameCore_debug _)
    · exact yields_refused ..
  · split
    · exact (yields_next ..).2 (s.sameCore_debug _)
    · exact yields_refused ..
  · exact yields_refused ..

theorem State.sameCore_scan2Write (addr : BitVec 5) (v : Word) (s : State) :
    Yields s.SameCore (s.scan2Write addr v) := by
  unfold State.scan2Write
  split
  · exact (yields_next ..).2 (s.sameCore_debug _)
  · exact (yields_next ..).2 (s.sameCore_debug _)
  · exact (yields_next ..).2 ⟨rfl, rfl, rfl, rfl, .inl rfl⟩
  · exact (yields_next ..).2 ⟨rfl, rfl, rfl, rfl, .inl rfl⟩
  · split
    · exact (yields_next ..).2 (s.sameCore_debug _)
    · exact yields_refused ..
  · split
    · exact (yields_next ..).2 (s.sameCore_debug _)
    · exact yields_refused ..
  · exact yields_refused ..

theorem State.sameCore_captureChain1 (s : State) : s.SameCore s.captureChain1 := by
  unfold State.captureChain1
  simp only
  split <;> exact ⟨rfl, rfl, rfl, rfl, .inl rfl⟩

theorem State.sameCore_captureChain (s : State) : s.SameCore s.captureChain := by
  unfold State.captureChain
  split
  · exact s.sameCore_captureChain1
  · exact .refl s
  · exact .refl s
  · exact s.sameCore_debug _
  · exact s.sameCore_debug _
  · exact s.sameCore_debug _
  · exact ⟨rfl, rfl, rfl, rfl, .inl rfl⟩

theorem State.sameCore_captureDr (s : State) : s.SameCore s.captureDr := by
  unfold State.captureDr
  split
  · exact s.sameCore_debug _
  · exact s.sameCore_debug _
  · exact s.sameCore_captureChain
  · exact ⟨rfl, rfl, rfl, rfl, .inl rfl⟩

theorem State.inv_cp15Read {s t : State} (i : s.Inv) {op1 : BitVec 3} {crn crm : BitVec 4} {op2 : BitVec 3}
    {v : Word} (h : s.cp15Read op1 crn crm op2 = .ok (v, t)) : t.Inv := by
  rw [(State.cp15Read_ok h).2]
  exact State.inv_configures (s.draw.2.configures_noteRead crn v) (State.inv_accessed s.accessed_draw i)

theorem State.inv_scan15 {s : State} (i : s.Inv) (write : Bool) (code : BitVec 4) (v : Word) :
    Yields State.Inv (s.scan15 write code v) := by
  unfold State.scan15
  split
  · exact yields_refused ..
  · split
    · split
      · split
        · rename_i h
          exact (yields_next ..).2 (State.inv_configures (State.cp15Write_configures h) i)
        · exact yields_refused ..
      · exact yields_refused ..
    · split
      · split
        · rename_i h
          exact (yields_next ..).2 ((State.sameCore_debug ..).inv (State.inv_cp15Read i h))
        · exact yields_refused ..
      · exact yields_refused ..

/-- After an instruction in debug state the PC may move on by two instructions (R557). -/
theorem State.inv_endDebugInstr {s : State} (i : s.Inv) (systemSpeed : Bool) :
    (s.endDebugInstr systemSpeed).Inv where
  canonical := i.canonical
  buffer := i.buffer
  mode := i.mode
  aligned := by
    show alignPc s.thumb (if systemSpeed then s.pc + s.len + s.len else s.pc) = _
    cases systemSpeed with
    | true => exact alignPc_add_one_len s _ (alignPc_add_one_len s s.pc i.aligned)
    | false => exact i.aligned
  control := i.control
  cacheOff := i.cacheOff
  prefetched := Nat.zero_le 3

theorem State.inv_runScanned {s : State} (i : s.Inv) (w : Word) (systemSpeed : Bool) :
    Yields State.Inv (s.runScanned w systemSpeed) := by
  unfold State.runScanned
  split
  · exact yields_fault ..
  · generalize { s.dbg with sysSpeed := systemSpeed } = d
    have scanned : State.Inv { s with pipe := scannedPipe w, dbg := d } :=
      ⟨i.canonical, i.buffer, i.mode, i.aligned, i.control, i.cacheOff, le_rfl⟩
    have x := State.executes_execute w { s with pipe := scannedPipe w, dbg := d }
    generalize State.execute w { s with pipe := scannedPipe w, dbg := d } = o at x ⊢
    cases o with
    | next t => exact (yields_next ..).2 (State.inv_endDebugInstr (((yields_next ..).1 x).inv scanned) _)
    | fault f => exact yields_fault ..
    | refused r => exact yields_refused ..

theorem State.inv_debugInstr {s : State} (i : s.Inv) (w : Word) (bit33 : Bool) :
    Yields State.Inv (s.debugInstr w bit33) := by
  unfold State.debugInstr
  split
  · exact yields_refused ..
  · split
    · exact yields_refused ..
    · simp only
      split
      · exact (yields_next ..).2 ((s.sameCore_debug _).inv i)
      · split
        · exact yields_refused ..
        · split
          · exact (yields_next ..).2 ((s.sameCore_debug _).inv i)
          · exact State.inv_runScanned ((s.sameCore_debug _).inv i) w false

theorem State.inv_leaveDebug {s : State} (i : s.Inv) : s.leaveDebug.Inv :=
  State.SameCore.inv (s := s) ⟨rfl, rfl, rfl, rfl, .inr rfl⟩ i

theorem State.inv_restart {s : State} (i : s.Inv) : Yields State.Inv s.restart := by
  unfold State.restart
  split
  · exact (yields_next ..).2 (State.inv_leaveDebug i)
  · rename_i w _
    have x := State.inv_runScanned ((s.sameCore_debug { s.dbg with held := none }).inv i) w (s.isTransfer w)
    generalize State.runScanned w (s.isTransfer w) _ = o at x ⊢
    cases o with
    | next t =>
      have t_inv := (yields_next ..).1 x
      simp only
      split
      · exact (yields_next ..).2 t_inv
      · split
        · exact (yields_next ..).2 (State.inv_leaveDebug t_inv)
        · exact yields_refused ..
    | fault f => exact yields_fault ..
    | refused r => exact yields_refused ..

/-! ## Every event -/

theorem State.inv_occur {s : State} (i : s.Inv) (e : EnvEvent) : Yields State.Inv (s.occur e) := by
  cases e with
  | tick => exact State.inv_coreStep i
  | interruptLines | debugPins =>
    exact (yields_next ..).2 (State.SameCore.inv (s := s) ⟨rfl, rfl, rfl, rfl, .inl rfl⟩ i)
  | reset v amid first reads =>
    exact (yields_next ..).2 (State.inv_warmReset v first reads (State.abandoned_canonical amid i.canonical))
  | busGrant =>
    exact (yields_next ..).2 (State.inv_accessed (State.accessed_memsys (MemSys.served_drainOne ..)) i)
  | masterWrite pa v =>
    exact (yields_next ..).2 ⟨Memory.wf_set i.canonical pa.isLt, i.buffer, i.mode, i.aligned, i.control,
      i.cacheOff, i.prefetched⟩
  | trst | tapInstruction | captureIr => exact (yields_next ..).2 ((s.sameCore_debug _).inv i)
  | captureDr => exact (yields_next ..).2 (s.sameCore_captureDr.inv i)
  | shiftBypass tdi =>
    refine (yields_next ..).2 ?_
    split
    · exact (s.sameCore_debug _).inv i
    · exact i
  | scanPath chain =>
    refine (yields_next ..).2 ?_
    split
    · exact (s.sameCore_debug _).inv i
    · exact i
  | scan2 write addr v =>
    unfold State.occur
    simp only
    split
    · split
      · exact (s.sameCore_scan2Write addr v).mono fun _ h => h.inv i
      · exact (s.sameCore_scan2Read addr).mono fun _ h => h.inv i
    · exact (yields_next ..).2 i
  | scan15 write code v =>
    unfold State.occur
    simp only
    split
    · exact State.inv_scan15 i write code v
    · exact (yields_next ..).2 i
  | debugInstr w bit33 =>
    unfold State.occur
    simp only
    split
    · exact State.inv_debugInstr ((s.sameCore_debug _).inv i) w bit33
    · exact (yields_next ..).2 i
  | debugData v =>
    refine (yields_next ..).2 ?_
    split
    · exact (s.sameCore_debug _).inv i
    · exact i
  | runTestIdle =>
    have latched := (s.sameCore_debug { s.dbg with requestLatch := s.dbg.ctl.getLsbD 1 }).inv i
    unfold State.occur
    simp only
    split
    · exact State.inv_restart latched
    · exact (yields_next ..).2 latched

/-- Settles O56: an event is an update the invariant does not see, a reset, or an instruction, of which each
change keeps the invariant. -/
theorem stepKeepsInvariant : Obligations.StepKeepsInvariant := by
  intro s t i
  have keeps : Yields State.Inv (step s) := by
    unfold step State.stepOnce
    split
    · exact State.inv_coreStep i
    · rename_i rest _
      exact State.inv_occur (State.SameCore.inv (s := s) (t := { s with schedule := rest })
        ⟨rfl, rfl, rfl, rfl, .inl rfl⟩ i) _
  exact keeps.next t

/-- Settles O57. -/
theorem resetHasInvariant : Obligations.ResetHasInvariant :=
  ⟨rfl, Nat.zero_le 8, rfl, rfl, rfl, fun _ => ⟨rfl, rfl⟩, Nat.zero_le 3⟩

end Sys2Proof.Machine
end

section
/-! # What User mode cannot change -/

namespace Sys2Proof.Machine

/-- What every change an instruction of User mode makes leaves as it is (R38, R40, R540). -/
structure State.Confined (s t : State) : Prop where
  cp15 : t.cp15 = { s.cp15 with fsr := t.cp15.fsr, far := t.cp15.far }
  tests : t.memsys.testRegs = s.memsys.testRegs
  mode : modeField t.cpsr = modeField s.cpsr
  masks : t.cpsr.extractLsb' 6 2 = s.cpsr.extractLsb' 6 2
  banks : ∀ k : Fin 30, 15 ≤ k.val → t.regs[k] = s.regs[k]
  saved : ∀ m, t.spsrOf m = s.spsrOf m

theorem State.Confined.refl (s : State) : s.Confined s :=
  ⟨rfl, rfl, rfl, rfl, fun _ _ => rfl, fun _ => rfl⟩

theorem State.Confined.trans {s t u : State} (x : s.Confined t) (y : t.Confined u) : s.Confined u :=
  ⟨y.cp15.trans (by rw [x.cp15]), y.tests.trans x.tests, y.mode.trans x.mode, y.masks.trans x.masks,
    fun k h => (y.banks k h).trans (x.banks k h), fun m => (y.saved m).trans (x.saved m)⟩

theorem State.Confined.usr {s t : State} (h : s.Confined t) (usr : s.mode = .usr) : t.mode = .usr := by
  rw [← usr, State.mode, State.mode, h.mode]

/-- A change of the CPSR above its control byte's mode and masks. -/
theorem State.confined_cpsr {s : State} {psr : Word} (mode : modeField psr = modeField s.cpsr)
    (masks : psr.extractLsb' 6 2 = s.cpsr.extractLsb' 6 2) : s.Confined { s with cpsr := psr } :=
  ⟨rfl, rfl, mode, masks, fun _ _ => rfl, fun _ => rfl⟩

theorem State.confined_accessed {s t : State} (h : s.Accessed t) : s.Confined t := by
  have tests := h.served.tests
  rw [h.same]
  exact ⟨rfl, tests, rfl, rfl, fun _ _ => rfl, fun _ => rfl⟩

theorem State.confined_fetches {s t : State} (h : s.Fetches t) : s.Confined t := by
  have tests := h.served.tests
  rw [h.same]
  exact ⟨rfl, tests, rfl, rfl, fun _ _ => rfl, fun _ => rfl⟩

theorem State.masks_setThumb (b : Bool) (s : State) :
    (s.setThumb b).cpsr.extractLsb' 6 2 = s.cpsr.extractLsb' 6 2 := by
  unfold State.setThumb
  simp only
  rw [extract_append_high _ _ _ _ (by omega), extract_append_high _ _ _ _ (by omega),
    extract_extract _ _ _ _ _ (by omega)]

theorem State.Does.ack {s t : State} (h : s.Does t) : t.dbg.ack = s.dbg.ack := by
  cases h with
  | access h => exact h.ack
  | saved v h => rw [State.setSpsrOf_debug]
  | configure may h => rw [h.same]
  | regs | flags | status | advance | branch | exchange | restore | stuck | fault | aside => rfl

/-- In User mode the changes that need a privileged mode or an SPSR cannot happen. -/
theorem State.Does.confined {s t : State} (h : s.Does t) (usr : s.mode = .usr) (running : s.dbg.ack = false) :
    s.Confined t := by
  have unprivileged : s.privileged ≠ true := by simp [State.privileged, usr]
  have noSpsr : s.spsr = none := by simp [State.spsr, usr, State.spsrOf]
  cases h with
  | access h => exact State.confined_accessed h
  | regs r h => exact ⟨rfl, rfl, rfl, rfl, h usr, fun _ => rfl⟩
  | flags psr h => exact State.confined_cpsr (extract_congr h 0 5 (by omega)) (extract_congr h 6 2 (by omega))
  | status psr may => simp [unprivileged, running] at may
  | saved v h => simp [noSpsr] at h
  | advance | branch | stuck | fault | aside => exact ⟨rfl, rfl, rfl, rfl, fun _ _ => rfl, fun _ => rfl⟩
  | exchange b v =>
    exact ⟨rfl, rfl, s.modeField_setThumb b, s.masks_setThumb b, fun _ _ => rfl, fun _ => rfl⟩
  | restore psr v h => simp [noSpsr] at h
  | configure may => exact absurd may unprivileged

theorem State.Leads.confined {s t : State} (h : s.Leads t) (usr : s.mode = .usr)
    (running : s.dbg.ack = false) : s.Confined t := by
  suffices s.Confined t ∧ t.dbg.ack = false from this.1
  induction h with
  | refl => exact ⟨.refl s, running⟩
  | tail _ d ih => exact ⟨ih.1.trans (d.confined (ih.1.usr usr) ih.2), d.ack.trans ih.2⟩

/-- Confined changes, and then perhaps an exception entry. -/
inductive State.UserSteps (s : State) : State → Prop
  | stays {t : State} (h : s.Confined t) : UserSteps s t
  | enters {u : State} (h : s.Confined u) (e : Exc) (ret : Word) : UserSteps s (u.enter e ret)

theorem State.Executes.userSteps {s u t : State} (c : s.Confined u) (h : u.Executes t) (usr : s.mode = .usr)
    (running : u.dbg.ack = false) : s.UserSteps t := by
  cases h with
  | completes h => exact .stays (c.trans (State.Leads.confined h (c.usr usr) running))
  | enters h e ret => exact .enters (c.trans (State.Leads.confined h (c.usr usr) running)) e ret

theorem State.CoreSteps.userSteps {s t : State} (h : s.CoreSteps t) (usr : s.mode = .usr)
    (off : s.pins.dbgen = false) : s.UserSteps t := by
  have fetched := State.confined_fetches s.fetches_prefetch
  cases h with
  | rests => exact .stays (.refl s)
  | entersDebug on => simp [off] at on
  | interrupted e ret => exact .enters (.refl s) e ret
  | runs running h => exact h.userSteps fetched usr (s.fetches_prefetch.ack.trans running)
  | breaks => exact .stays (fetched.trans ⟨rfl, rfl, rfl, rfl, fun _ _ => rfl, fun _ => rfl⟩)

theorem State.Confined.vectorBase {s t : State} (h : s.Confined t) : t.cp15.vectorBase = s.cp15.vectorBase := by
  rw [h.cp15]
  rfl

/-- What an exception entry after confined changes leaves (R503). -/
theorem State.UserSteps.mode_or_entry {s t : State} (h : s.UserSteps t) :
    (modeField t.cpsr = modeField s.cpsr ∧ t.cpsr.extractLsb' 6 2 = s.cpsr.extractLsb' 6 2 ∧
        (∀ k : Fin 30, 15 ≤ k.val → t.regs[k] = s.regs[k]) ∧ ∀ m, t.spsrOf m = s.spsrOf m) ∨
      ∃ e : Exc, modeField t.cpsr = e.mode.bits ∧ t.thumb = false ∧ t.cpsr.getLsbD 7 = true ∧
        t.pc = s.cp15.vectorBase + e.offset ∧
        (∀ k : Fin 30, 15 ≤ k.val → k ≠ phys e.mode 14 → t.regs[k] = s.regs[k]) ∧
        ∀ m, m ≠ e.mode → t.spsrOf m = s.spsrOf m := by
  cases h with
  | stays h => exact .inl ⟨h.mode, h.masks, h.banks, h.saved⟩
  | @enters u h e ret =>
    have entered := State.entered e ret u
    refine .inr ⟨e, entered.mode, entered.thumb, entered.irqMask, ?_, fun k hk ne => ?_, fun m ne => ?_⟩
    · rw [State.enter_pc, h.vectorBase]
    · exact (entered.regs k (by simpa using ne)).trans (h.banks k hk)
    · exact (entered.others m ne).trans (h.saved m)

theorem State.UserSteps.system {s t : State} (h : s.UserSteps t) :
    t.cp15 = { s.cp15 with fsr := t.cp15.fsr, far := t.cp15.far } ∧
      t.memsys.testRegs = s.memsys.testRegs := by
  cases h with
  | stays h => exact ⟨h.cp15, h.tests⟩
  | enters h e ret =>
    rw [State.enter_cp15, State.enter_memsys]
    exact ⟨h.cp15, h.tests⟩

/-- Settles O59: each change an instruction of User mode makes is confined, and only an exception entry, which
comes last, leaves the mode. -/
theorem userModeIsConfined : Obligations.UserModeIsConfined := by
  intro s t usr quiet off h
  have steps : Yields s.CoreSteps (step s) := by
    rw [step, State.stepOnce, quiet]
    exact s.coreSteps_coreStep
  have user := (steps.next t h).userSteps usr off
  obtain ⟨cp15, tests⟩ := user.system
  rw [cp15]
  exact ⟨rfl, rfl, rfl, rfl, rfl, rfl, (sameTestRegs_iff s t).2 tests, user.mode_or_entry⟩

end Sys2Proof.Machine
end

section
/-! # The fetch and the step on a quiet machine -/

namespace Sys2Proof.Machine

/-! ## A read keeps memory, whatever it meets -/

theorem MemSys.Calm.kept_draw {big : Bool} {ms : MemSys} (h : ms.Calm) : MemSys.Kept big ms ms.draw.2 :=
  MemSys.kept_of_eq h ms.cache ms.tlb ms.tlbVictim 0 ms.bus (ms.draws + 1)

theorem MemSys.Calm.kept_walk {big : Bool} {ms : MemSys} (h : ms.Calm) (ttb : BitVec 18) (mva : Word) :
    MemSys.Kept big ms (ms.walk big ttb mva).2 := by
  obtain ⟨n, bus, e⟩ := h.walk big ttb mva
  rw [e]
  exact MemSys.kept_of_eq h ms.cache ms.tlb ms.tlbVictim n bus ms.draws

theorem MemSys.Calm.kept_tlbFill {big : Bool} {ms : MemSys} (h : ms.Calm) (e : TlbEntry) :
    MemSys.Kept big ms (ms.tlbFill e) :=
  MemSys.kept_of_eq h ms.cache _ ms.nextTlbVictim 0 ms.bus ms.draws

theorem MemSys.Calm.kept_translate {big : Bool} {ms : MemSys} (h : ms.Calm) (cp : Cp15) (mva : Word) :
    MemSys.Kept big ms (ms.translate big cp mva).2 := by
  unfold MemSys.translate
  split
  · exact .refl h
  · have w := h.kept_walk (big := big) cp.ttb mva
    generalize ms.walk big cp.ttb mva = x at w ⊢
    obtain ⟨found, m⟩ := x
    cases found with
    | sectionFault => exact w.trans w.calm.kept_draw
    | pageFault domain => exact w
    | tinyInCoarse => exact w
    | entry e => exact w.trans (w.calm.kept_tlbFill e)

theorem MemSys.Calm.kept_resolve {big : Bool} {ms : MemSys} (h : ms.Calm) (cp : Cp15) (k : Access) (n : Size)
    (priv : Bool) (va : Word) : MemSys.Kept big ms (ms.resolve big cp k n priv va).2 := by
  unfold MemSys.resolve MemSys.route
  split
  · exact h.kept_draw
  · split
    · have t := h.kept_translate (big := big) cp (accessMva cp n va)
      generalize ms.translate big cp (accessMva cp n va) = x at t ⊢
      obtain ⟨e | i | r, m⟩ := x
      · simp only
        split <;> exact t
      · exact t
      · exact t
    · exact .refl h

theorem MemSys.Calm.kept_read {big : Bool} {ms : MemSys} (h : ms.Calm) (cp : Cp15) (k : Access) (n : Size)
    (priv : Bool) (va : Word) : MemSys.Kept big ms (ms.read big cp k n priv va).2 := by
  have resolved := h.kept_resolve (big := big) cp k n priv va
  unfold MemSys.read
  rcases e : ms.resolve big cp k n priv va with ⟨r | i | stop, m⟩ <;> rw [e] at resolved
  · have low := MemSys.resolve_low (congrArg Prod.fst e)
    exact resolved.trans (MemSys.readRoute_okay resolved.calm low).2
  · exact resolved
  · exact resolved

/-- The lane word of a read that is let through (R100). -/
theorem State.Quiet.read {s : State} (q : s.Quiet) {k : Access} {n : Size} {priv : Bool} {va : Word}
    {r : Route} (h : s.Reaches k n priv va r) :
    (s.memsys.read s.platform.bigEndian s.cp15 k n priv va).1 = .ok (s.wordRead k (accessMva s.cp15 n va) r) := by
  obtain ⟨tlb, v, j, bus, e⟩ := MemSys.resolve_ok q.calm h
  have kept := MemSys.kept_of_eq (big := s.platform.bigEndian) q.calm s.memsys.cache tlb v j bus s.memsys.draws
  have okay := (MemSys.readRoute_okay (big := s.platform.bigEndian) (cp := s.cp15) (k := k) (n := n) kept.calm
    (MemSys.resolve_low h)).1
  unfold MemSys.read
  rw [e]
  simp only
  rw [okay]
  unfold State.wordRead State.settled
  rw [kept.settled]
  rfl

/-! ## Fetches on a quiet machine -/

theorem State.Fetches.platform {s t : State} (h : s.Fetches t) : t.platform = s.platform := by rw [h.same]

theorem State.Fetches.cp15 {s t : State} (h : s.Fetches t) : t.cp15 = s.cp15 := by rw [h.same]

theorem State.Fetches.cpsr {s t : State} (h : s.Fetches t) : t.cpsr = s.cpsr := by rw [h.same]

theorem State.Fetches.quiet {s t : State} (h : s.Fetches t) (q : s.Quiet)
    (kept : MemSys.Kept s.platform.bigEndian s.memsys t.memsys) : t.Quiet :=
  ⟨kept.canonical q.canonical, kept.calm, by rw [h.pins]; exact q.dbgen, h.ack.trans q.ack⟩

theorem State.Quiet.kept_fetchWord {s : State} (q : s.Quiet) (va : Word) :
    MemSys.Kept s.platform.bigEndian s.memsys (s.fetchWord va).2.memsys := by
  have read := q.calm.kept_read (big := s.platform.bigEndian) s.cp15 .fetch .word s.privileged va
  unfold State.fetchWord
  split
  · exact .refl q.calm
  · generalize s.memsys.read s.platform.bigEndian s.cp15 .fetch .word s.privileged va = x at read ⊢
    obtain ⟨got, ms⟩ := x
    simp only
    split
    · exact read.trans (MemSys.kept_stale read.calm false)
    · exact read

theorem State.compare_memsys (y : BusCycle) (s : State) : (s.compare y).2.memsys = s.memsys := by
  unfold State.compare
  split <;> rfl

theorem State.Quiet.kept_fetch {s : State} (q : s.Quiet) (va : Word) :
    MemSys.Kept s.platform.bigEndian s.memsys (s.fetch va).2.memsys := by
  have kept := q.kept_fetchWord va
  unfold State.fetch
  generalize s.fetchWord va = x at kept ⊢
  obtain ⟨w | i | r, u⟩ := x
  · simp only [State.compare_memsys]
    exact kept
  · simp only [State.compare_memsys]
    exact kept
  · exact kept

theorem State.Quiet.kept_fillPipe {s : State} (q : s.Quiet) (n : Nat) :
    MemSys.Kept s.platform.bigEndian s.memsys (s.fillPipe n).memsys := by
  induction n generalizing s with
  | zero => exact .refl q.calm
  | succ n ih =>
    have kept := q.kept_fetch (s.pc + s.len * BitVec.ofNat 32 s.pipe.length)
    have f := s.fetches_fetch (s.pc + s.len * BitVec.ofNat 32 s.pipe.length)
    unfold State.fillPipe
    generalize s.fetch (s.pc + s.len * BitVec.ofNat 32 s.pipe.length) = x at kept f ⊢
    obtain ⟨head, u⟩ := x
    have platform : u.platform = s.platform := f.platform
    exact kept.trans (platform ▸ ih (s := { u with pipe := u.pipe ++ [head] }) ((f.with_pipe _).quiet q kept))

theorem State.Quiet.byteAt_prefetch {s : State} (q : s.Quiet) (a : Nat) : s.prefetch.byteAt a = s.byteAt a := by
  have kept := q.kept_fillPipe (3 - s.pipe.length)
  unfold State.byteAt State.settled
  rw [s.fetches_prefetch.platform]
  exact congrArg (fun m => Memory.get m a) kept.settled

/-- With nothing prefetched the Thumb prefetch buffer serves no fetch (R73). -/
theorem State.inThumbBuffer_of_empty {s : State} (h : s.pipe = []) (va : Word) : s.inThumbBuffer va = false := by
  simp [State.inThumbBuffer, h]

/-- What the first fetch of a quiet machine gives (R95, R100). -/
theorem State.Quiet.fetch {s : State} (q : s.Quiet) (empty : s.pipe = []) {va : Word} {r : Route}
    (h : s.Reaches .fetch .word s.privileged va r) :
    (s.fetch va).1 =
      ⟨.ok (lanes s.cp15.bigEndian s.fetchSize va (s.wordRead .fetch (accessMva s.cp15 .word va) r)), false⟩ := by
  have got : (s.fetchWord va).1 = .ok (s.wordRead .fetch (accessMva s.cp15 .word va) r) := by
    have read := q.read h
    unfold State.fetchWord
    rw [State.inThumbBuffer_of_empty empty]
    generalize s.memsys.read s.platform.bigEndian s.cp15 .fetch .word s.privileged va = x at read ⊢
    simp only [Bool.false_eq_true, if_false]
    split <;> exact read
  have f := s.fetches_fetchWord va
  unfold State.fetch
  generalize s.fetchWord va = x at got f ⊢
  obtain ⟨word, u⟩ := x
  obtain rfl : word = _ := got
  have off : u.pins.dbgen = false := by rw [f.pins]; exact q.dbgen
  have cp15 : u.cp15 = s.cp15 := f.cp15
  simp only [State.compare_quiet off, cp15]

/-- Settles O4: the first of the three fetches gives the word, and none of them changes a byte. -/
theorem fetchReadsProgramCounter : Obligations.FetchReadsProgramCounter := by
  intro s r q empty h
  have first := q.fetch empty h
  have pipe := s.fetch_pipe s.pc
  have fetched : s.prefetch =
      State.fillPipe 2 { (s.fetch s.pc).2 with pipe := (s.fetch s.pc).2.pipe ++ [(s.fetch s.pc).1] } := by
    have next : s.pc + s.len * BitVec.ofNat 32 s.pipe.length = s.pc := by simp [empty]
    have start : s.prefetch = s.fillPipe 3 := by rw [State.prefetch, empty]; rfl
    rw [start, State.fillPipe, next]
  obtain ⟨l, length, e⟩ := State.fillPipe_pipe 2
    { (s.fetch s.pc).2 with pipe := (s.fetch s.pc).2.pipe ++ [(s.fetch s.pc).1] }
  obtain ⟨f, g, rfl⟩ := List.length_eq_two.1 length
  refine ⟨f, g, ?_, q.byteAt_prefetch⟩
  rw [fetched, e]
  simp only [pipe, empty, first, List.nil_append, List.cons_append]
  rfl

/-! ## The step at a quiet boundary -/

/-- With no debugger the fetch changes the memory system and what is prefetched only. -/
theorem State.prefetch_undebugged {s : State} (off : s.pins.dbgen = false) :
    s.prefetch = { s with
      memsys := s.prefetch.memsys, pipe := s.prefetch.pipe, thumbBuffer := s.prefetch.thumbBuffer } := by
  have f := s.fetches_prefetch
  rw [f.same, f.undebugged off]

/-- A register is banked in FIQ mode from r8 on, else from r13 on (R586). -/
theorem State.isBanked_iff (s : State) (k : Reg) :
    s.isBanked k = true ↔ (if s.mode = .fiq then 8 else 13) ≤ k.toNat ∧ k.toNat ≤ 14 := by
  unfold State.isBanked
  split <;> simp

/-- Whether an instruction word passes its condition is read from the CPSR (R182). -/
theorem State.wordPasses_congr {s t : State} (h : t.cpsr = s.cpsr) (w : Word) : t.wordPasses w = s.wordPasses w := by
  have passes (c : Cond) : t.passes c = s.passes c := by
    cases c <;> simp only [State.passes, State.flagN, State.flagZ, State.flagC, State.flagV, h]
  unfold State.wordPasses State.thumb
  rw [h]
  simp only [passes]

/-- The boundary of a machine nothing intervenes at runs the head of the pipeline. -/
theorem State.coreStep_runs {s : State} {f : Fetched} {rest : List Fetched} (stuck : s.stuck = none)
    (ack : s.dbg.ack = false) (off : s.pins.dbgen = false) (top : s.offTop = false)
    (quiet : s.interrupt = none) (pipe : s.prefetch.pipe = f :: rest) :
    s.coreStep = s.prefetch.runHead f := by
  unfold State.coreStep State.runNext
  simp [stuck, ack, off, top, quiet, pipe, State.debugRequested]

/-- Settles O3. -/
theorem stepRunsDecodedInstruction : Obligations.StepRunsDecodedInstruction := by
  intro s w rest i schedule stuck ack off top quiet pipe decoded hazard
  have same := State.prefetch_undebugged off
  have cpsr : s.prefetch.cpsr = s.cpsr := s.fetches_prefetch.cpsr
  have code : s.prefetch.code w = s.code w := by unfold State.code State.thumb; rw [cpsr]
  have runs : step s = s.prefetch.runInstr w i := by
    unfold step State.stepOnce
    rw [schedule]
    simp only
    rw [State.coreStep_runs stuck ack off top quiet pipe]
    simp [State.runHead, State.execute, code, decoded]
  have banked : s.prefetch.isBanked = s.isBanked := by
    funext k
    unfold State.isBanked
    rw [State.mode_congr cpsr]
  have passes : s.prefetch.wordPasses w = s.wordPasses w := State.wordPasses_congr cpsr w
  have userBank : s.prefetch.userBank = s.userBank := by rw [same]
  have hazard_iff : (s.prefetch.userBank && s.prefetch.wordPasses w && i.regs.any s.prefetch.isBanked) = true ↔
      hazard := by
    rw [userBank, passes, banked]
    simp only [hazard, Bool.and_eq_true, List.any_eq_true, State.isBanked_iff, and_assoc]
  refine ⟨fun no => ?_, fun yes => ?_, same⟩
  · rw [runs, State.runInstr, if_neg (fun h => no (hazard_iff.1 h))]
  · rw [runs, State.runInstr, if_pos (hazard_iff.2 yes)]

end Sys2Proof.Machine
end

section
/-! # The system control and the debug coprocessor: MRC and MCR to CP15 and CP14 -/

namespace Sys2Proof.Machine

/-! ## What the instructions do -/

theorem exec_armMrc (c : Cond) (op1 : BitVec 3) (crn : BitVec 4) (rd : Reg) (cp : BitVec 4) (op2 : BitVec 3)
    (crm : BitVec 4) (s : State) :
    exec (.armMrc c op1 crn rd cp op2 crm) s = execArmMrc c op1 crn rd cp op2 crm s := rfl

theorem exec_armMcr (c : Cond) (op1 : BitVec 3) (crn : BitVec 4) (rd : Reg) (cp : BitVec 4) (op2 : BitVec 3)
    (crm : BitVec 4) (s : State) :
    exec (.armMcr c op1 crn rd cp op2 crm) s = execArmMcr c op1 crn rd cp op2 crm s := rfl

/-- An instruction that passes its condition and breaks no restriction has its own effect (R183). -/
theorem State.conditional_passes {s : State} {c : Cond} (effect : State → Out) (passes : s.passes c = true) :
    s.conditional c none effect = effect s := if_pos passes

/-- MRC from CP15 is its own effect when the condition passes. -/
theorem State.exec_mrc15 {s : State} {c : Cond} (op1 : BitVec 3) (crn crm : BitVec 4) (op2 : BitVec 3)
    (rd : Reg) (passes : s.passes c = true) :
    exec (.armMrc c op1 crn rd 15 op2 crm) s = s.mrc15 op1 crn crm op2 rd := by
  rw [exec_armMrc, execArmMrc, State.conditional_passes _ passes]
  rfl

/-- MRC from CP14 is its own effect when the condition passes. -/
theorem State.exec_mrc14 {s : State} {c : Cond} (op1 : BitVec 3) (crn crm : BitVec 4) (op2 : BitVec 3)
    (rd : Reg) (passes : s.passes c = true) :
    exec (.armMrc c op1 crn rd 14 op2 crm) s = s.mrc14 op1 crn crm op2 rd := by
  rw [exec_armMrc, execArmMrc, State.conditional_passes _ passes]
  rfl

theorem notPcRestriction_eq_none {r : Reg} (h : r ≠ 15) : notPcRestriction r = none := by
  rw [notPcRestriction, beq_false_of_ne h]
  rfl

/-- MCR to CP14 is its own effect when the condition passes and Rd is not r15. -/
theorem State.exec_mcr14 {s : State} {c : Cond} {rd : Reg} (op1 : BitVec 3) (crn crm : BitVec 4)
    (op2 : BitVec 3) (passes : s.passes c = true) (data : rd ≠ 15) :
    exec (.armMcr c op1 crn rd 14 op2 crm) s = s.mcr14 op1 crn crm op2 (s.reg rd) := by
  rw [exec_armMcr, execArmMcr, notPcRestriction_eq_none data, State.conditional_passes _ passes]
  rfl

theorem State.reg_advance (s : State) {i : Reg} (h : i ≠ 15) : s.advance.reg i = s.reg i := by
  rw [State.reg, State.reg, if_neg h, if_neg h]
  rfl

/-- What MRC leaves at its end: its value in Rd, or the value's bits [31:28] in the flags (R363). -/
def State.Takes (s : State) (rd : Reg) (v : Word) (t : State) : Prop :=
  if rd = 15 then
    FlagsAre t (v.getLsbD 31) (v.getLsbD 30) (v.getLsbD 29) (v.getLsbD 28) ∧ OnlyRegisters [] s t
  else t.reg rd = v ∧ t.cpsr = s.cpsr ∧ OnlyRegisters [phys s.mode rd] s t

/-- The end of MRC, whatever number of free values was drawn before it. -/
theorem State.endMrc_takes (s : State) (n : Nat) (rd : Reg) (v : Word) :
    ∃ t, State.endMrc rd v { s with draws := n } = .next t ∧ t.pc = s.pc + s.len ∧ s.Takes rd v t := by
  unfold State.endMrc State.Takes
  by_cases h : rd = 15
  · simp only [h, if_true]
    refine ⟨_, rfl, ?_, ?_, ⟨⟨fun _ _ => rfl, ?_, rfl, fun _ => rfl⟩, withFlags_low ..⟩⟩
    · exact congrArg (s.pc + ·) (State.len_setFlags ..)
    · simp [FlagsAre, State.flagN, State.flagZ, State.flagC, State.flagV, State.setFlags, withFlags_getElem]
    · constructor <;> rfl
  · simp only [h, if_false]
    have byte (a : Nat) : (State.setReg rd v { s with draws := n }).advance.byteAt a = s.byteAt a := by
      simp [State.byteAt, State.settled]
    refine ⟨_, rfl, ?_, ?_, ?_, ⟨⟨State.sameRegs_setReg rd v { s with draws := n }, ?_, ?_, byte⟩, ?_⟩⟩
    · simp [State.advance, State.len, State.thumb]
    · rw [State.reg_advance _ h, State.reg_setReg _ _ _ _ h, if_pos rfl]
    · simp
    · constructor <;> simp
    · simp
    · simp

/-- MRC from CP15 in a privileged mode, of a register that can be read. -/
theorem State.mrc15_reads {s : State} {c : Cond} {op1 : BitVec 3} {crn crm : BitVec 4} {op2 : BitVec 3}
    {v : Word} (rd : Reg) (passes : s.passes c = true) (priv : s.privileged = true)
    (h : s.cp15Value op1 crn crm op2 s.draw.1 = .ok v) :
    ∃ t, exec (.armMrc c op1 crn rd 15 op2 crm) s = .next t ∧ t.pc = s.pc + s.len ∧
      (s.noteRead crn v).Takes rd v t := by
  have value : s.draw.2.cp15Value op1 crn crm op2 s.draw.1 = .ok v := h
  have run : exec (.armMrc c op1 crn rd 15 op2 crm) s =
      State.endMrc rd v { s.noteRead crn v with draws := s.draws + 1 } := by
    have noted : s.draw.2.noteRead crn v = { s.noteRead crn v with draws := s.draws + 1 } := by
      unfold State.noteRead
      split <;> rfl
    rw [State.exec_mrc15 op1 crn crm op2 rd passes, State.mrc15, if_pos priv]
    simp only [State.cp15Read, value, noted]
  have pc : (s.noteRead crn v).pc + (s.noteRead crn v).len = s.pc + s.len := by
    unfold State.noteRead
    split <;> rfl
  rw [run, ← pc]
  exact State.endMrc_takes ..

/-- MRC from CP15 in a privileged mode, of a register that cannot be read. -/
theorem State.mrc15_refuses {s : State} {c : Cond} {op1 : BitVec 3} {crn crm : BitVec 4} {op2 : BitVec 3}
    {r : Refusal} (rd : Reg) (passes : s.passes c = true) (priv : s.privileged = true)
    (h : s.cp15Value op1 crn crm op2 s.draw.1 = .error r) :
    exec (.armMrc c op1 crn rd 15 op2 crm) s = .refused r := by
  have value : s.draw.2.cp15Value op1 crn crm op2 s.draw.1 = .error r := h
  rw [State.exec_mrc15 op1 crn crm op2 rd passes, State.mrc15, if_pos priv]
  simp only [State.cp15Read, value]

/-- CP15 has no readable register at these numbers (R41). -/
theorem State.cp15Value_unallocated (s : State) {crn : BitVec 4} (op1 : BitVec 3) (crm : BitVec 4)
    (op2 : BitVec 3) (free : Word) (h : ∀ k ∈ [0, 1, 2, 3, 5, 6, 10, 13, 15], crn.toNat ≠ k) :
    s.cp15Value op1 crn crm op2 free = .error .cp15Unpredictable := by
  unfold State.cp15Value
  split
  case h_13 => rfl
  all_goals exact absurd ‹crn.toNat = _› (h _ (by decide))

/-- MCR to CP15 in a privileged mode. -/
theorem State.exec_mcr15 {s : State} {c : Cond} {rd : Reg} (op1 : BitVec 3) (crn crm : BitVec 4)
    (op2 : BitVec 3) (passes : s.passes c = true) (priv : s.privileged = true) (data : rd ≠ 15) :
    exec (.armMcr c op1 crn rd 15 op2 crm) s =
      match s.cp15Write op1 crn crm op2 (s.reg rd) with
      | .ok t => .next t.advance
      | .error r => .refused r := by
  rw [exec_armMcr, execArmMcr, notPcRestriction_eq_none data, State.conditional_passes _ passes]
  exact if_pos priv

theorem State.mcr15_writes {s t : State} {c : Cond} {rd : Reg} {op1 : BitVec 3} {crn crm : BitVec 4}
    {op2 : BitVec 3} (passes : s.passes c = true) (priv : s.privileged = true) (data : rd ≠ 15)
    (h : s.cp15Write op1 crn crm op2 (s.reg rd) = .ok t) :
    exec (.armMcr c op1 crn rd 15 op2 crm) s = .next t.advance := by
  rw [State.exec_mcr15 op1 crn crm op2 passes priv data, h]

theorem State.mcr15_refuses {s : State} {c : Cond} {rd : Reg} {op1 : BitVec 3} {crn crm : BitVec 4}
    {op2 : BitVec 3} {r : Refusal} (passes : s.passes c = true) (priv : s.privileged = true) (data : rd ≠ 15)
    (h : s.cp15Write op1 crn crm op2 (s.reg rd) = .error r) :
    exec (.armMcr c op1 crn rd 15 op2 crm) s = .refused r := by
  rw [State.exec_mcr15 op1 crn crm op2 passes priv data, h]

/-- A write that asks for zeros under a mask (U9). -/
theorem State.mcr15_sbz {s : State} {c : Cond} {rd : Reg} {op1 : BitVec 3} {crn crm : BitVec 4}
    {op2 : BitVec 3} {mask : Word} {t : State} (passes : s.passes c = true) (priv : s.privileged = true)
    (data : rd ≠ 15) (h : s.cp15Write op1 crn crm op2 (s.reg rd) = sbzWrite mask (s.reg rd) t) :
    exec (.armMcr c op1 crn rd 15 op2 crm) s =
      if s.reg rd &&& mask = 0 then .next t.advance else .refused .cp15SbzBits := by
  rw [State.exec_mcr15 op1 crn crm op2 passes priv data, h, sbzWrite]
  by_cases zero : s.reg rd &&& mask = 0
  · rw [if_pos zero, if_pos zero]
  · rw [if_neg zero, if_neg zero]

/-- CP15 has no writable register at these numbers (R41). -/
theorem State.cp15Write_unallocated (s : State) {crn : BitVec 4} (op1 : BitVec 3) (crm : BitVec 4)
    (op2 : BitVec 3) (v : Word) (h : ∀ k ∈ [1, 2, 3, 5, 6, 7, 8, 9, 10, 13, 15], crn.toNat ≠ k) :
    s.cp15Write op1 crn crm op2 v = .error .cp15Unpredictable := by
  unfold State.cp15Write
  split
  case h_34 => rfl
  all_goals exact absurd ‹crn.toNat = _› (h _ (by decide))

/-! ## The values -/

/-- Words that agree where a mask is set are equal under it. -/
theorem and_congr_getLsbD {w : Nat} {x y m : BitVec w}
    (h : ∀ i < w, m.getLsbD i = true → x.getLsbD i = y.getLsbD i) : x &&& m = y &&& m := by
  apply BitVec.eq_of_getLsbD_eq
  intro i hi
  cases e : m.getLsbD i <;> simp [e]
  exact h i hi e

/-- A mask of the high part hides what the low part is. -/
theorem append_and_high {a b : Nat} (x : BitVec a) (y z : BitVec b) :
    (x ++ y) &&& (BitVec.allOnes a ++ 0#b) = (x ++ z) &&& (BitVec.allOnes a ++ 0#b) := by
  simp [BitVec.and_append]

/-- The identification word with the revision in its low bits (R42). -/
theorem idWord_eq (revision : BitVec 4) :
    (Config.idUpper ++ revision : Word) = 0x41807200 ||| revision.zeroExtend 32 := by
  rw [BitVec.append_def]
  rfl

/-- The bits of the Control Register that the spec gives are read as they are (R43). -/
theorem Cp15.readControl_mask (cp : Cp15) (free : Word) :
    cp.readControl free &&& 0x000023ff = cp.control &&& 0x000023ff := by
  apply and_congr_getLsbD
  intro i hi given
  have low : i < 10 ∨ i = 13 := by
    revert given; revert i; decide
  simp only [Cp15.readControl, BitVec.getLsbD_append, BitVec.getLsbD_extractLsb']
  rcases low with low | rfl
  · simp [low]
  · simp

/-- The bits of the FSR that the spec gives: bit 8 is zero (R47). -/
theorem Cp15.readFsr_mask (cp : Cp15) (free : Word) :
    cp.readFsr free &&& 0x000001ff = cp.fsr.zeroExtend 32 &&& 0x000001ff := by
  apply and_congr_getLsbD
  intro i hi given
  have low : i < 9 := by
    revert given; revert i; decide
  simp only [Cp15.readFsr, BitVec.getLsbD_append]
  by_cases h : i < 8
  · simp [h, hi]
  · obtain rfl : i = 8 := by omega
    simp

/-- The Test State Register is bit 0 (R54). -/
theorem testState_mask (x : BitVec 31) (b : Bool) :
    (x ++ flagBit b : Word) &&& 0x00000001 = (if b then 1 else 0) &&& 0x00000001 := by
  apply and_congr_getLsbD
  intro i hi given
  obtain rfl : i = 0 := by
    revert given; revert i; decide
  simp only [BitVec.getLsbD_append]
  cases b <;> simp

/-- Settles O46. -/
theorem cp15Reads : Obligations.Cp15Reads := by
  intro s c rd passes priv reads
  have read {op1 : BitVec 3} {crn crm : BitVec 4} {op2 : BitVec 3} {mask value : Word} (v : Word)
      (h : s.cp15Value op1 crn crm op2 s.draw.1 = .ok v) (m : v &&& mask = value &&& mask) :
      reads op1 crn crm op2 mask value := by
    obtain ⟨t, run, pc, takes⟩ := State.mrc15_reads rd passes priv h
    refine ⟨t, v, run, m, pc, ?_⟩
    unfold State.noteRead at takes
    by_cases control : crn = 1
    · simp only [control, if_true] at takes ⊢
      exact takes
    · simp only [control, if_false] at takes ⊢
      exact takes
  refine ⟨⟨?_, ?_, ?_, ?_, ?_, ?_, ?_, ?_, ?_⟩, fun on => ⟨?_, ?_, ?_⟩, fun off => ?_, ?_⟩
  · exact read _ rfl (by rw [idWord_eq])
  · exact read _ rfl (s.cp15.readControl_mask _)
  · exact read _ rfl (append_and_high s.cp15.ttb _ 0#14)
  · exact read _ rfl rfl
  · exact read _ rfl (s.cp15.readFsr_mask _)
  · exact read _ rfl rfl
  · exact read _ rfl (append_and_high s.cp15.pid _ 0#25)
  · exact read _ rfl rfl
  · exact read _ rfl (testState_mask _ _)
  · exact read _ (if_pos on) rfl
  · exact read _ (if_pos on) rfl
  · exact read _ (if_pos on) (by simp)
  · have refused {α : Type} (x : α) : testOnly s.cp15 x = .error .testStateOff := by simp [testOnly, off]
    intro x hx
    simp only [List.mem_cons, List.not_mem_nil, or_false] at hx
    rcases hx with rfl | rfl | rfl <;> exact State.mrc15_refuses rd passes priv (refused _)
  · intro crn hcrn op1 op2 crm
    refine State.mrc15_refuses rd passes priv (s.cp15Value_unallocated op1 crm op2 _ ?_)
    revert crn
    decide

/-- The Control Register that a value makes, as two masks (R43). -/
theorem controlOf_masks (v : Word) : controlOf v = (v &&& 0x0000238f) ||| 0x00000070 := by
  apply BitVec.eq_of_getLsbD_eq
  intro i hi
  have given : (0x0000238f : Word).getLsbD i = decide (i < 4 ∨ (7 ≤ i ∧ i < 10) ∨ i = 13) := by
    revert i; decide
  have constant : (0x00000070 : Word).getLsbD i = decide (4 ≤ i ∧ i < 7) := by
    revert i; decide
  rw [controlOf_getLsbD v hi, BitVec.getLsbD_or, BitVec.getLsbD_and, given, constant]
  split_ifs with low pdl rsb vectors
  · simp [low, show ¬ 4 ≤ i by omega]
  · simp [pdl, show 4 ≤ i by omega]
  · simp [rsb, show 7 ≤ i by omega, show ¬ i < 7 by omega]
  · simp [vectors]
  · simp [low, rsb, vectors, pdl]

theorem Cp15.controlSbz_iff (cp : Cp15) (v : Word) :
    cp.controlSbz v = true ↔
      (v.extractLsb' 14 18 = 0 ∨ ∃ r ∈ cp.controlReads, r.extractLsb' 14 18 = v.extractLsb' 14 18) ∧
        (v.extractLsb' 10 3 = 0 ∨ ∃ r ∈ cp.controlReads, r.extractLsb' 10 3 = v.extractLsb' 10 3) := by
  simp [Cp15.controlSbz]

/-- Settles O47. -/
theorem cp15Writes : Obligations.Cp15Writes := by
  intro s c rd passes priv data v cp mcr becomes sbz preserved
  refine ⟨fun bad => ?_, fun good => ?_, ?_, ?_, ?_, ?_, ?_, ?_, ?_, ?_⟩
  · have no : s.cp15.controlSbz (s.reg rd) = false :=
      Bool.eq_false_iff.2 fun yes => bad ((s.cp15.controlSbz_iff _).1 yes)
    exact State.mcr15_refuses passes priv data (show s.writeControl _ = _ by rw [State.writeControl, no]; rfl)
  · have yes : s.cp15.controlSbz (s.reg rd) = true := (s.cp15.controlSbz_iff _).2 good
    split
    · rename_i on
      exact State.mcr15_refuses passes priv data
        (show s.writeControl _ = _ by rw [State.writeControl, yes]; exact if_pos on)
    · rename_i off
      refine State.mcr15_writes passes priv data (show s.writeControl _ = _ from ?_)
      rw [State.writeControl, yes, ← controlOf_masks]
      exact if_neg off
  · exact State.mcr15_sbz passes priv data rfl
  · exact State.mcr15_writes passes priv data rfl
  · exact State.mcr15_sbz passes priv data rfl
  · exact State.mcr15_writes passes priv data rfl
  · exact State.mcr15_sbz passes priv data rfl
  · exact State.mcr15_writes passes priv data rfl
  · exact State.mcr15_writes passes priv data rfl
  · intro crn hcrn op1 op2 crm
    refine State.mcr15_refuses passes priv data (s.cp15Write_unallocated op1 crm op2 _ ?_)
    revert crn
    decide

/-! ## CP14 -/

/-- MRC from CP14, of a register that can be read. -/
theorem State.mrc14_reads {s : State} {c : Cond} {op1 : BitVec 3} {crn crm : BitVec 4} {op2 : BitVec 3}
    {v : Word} {cp : Cp14} (rd : Reg) (passes : s.passes c = true)
    (h : s.cp14.read op1 crn crm op2 = some (v, cp)) :
    ∃ t, exec (.armMrc c op1 crn rd 14 op2 crm) s = .next t ∧ t.pc = s.pc + s.len ∧
      State.Takes { s with cp14 := cp } rd v t := by
  have run : exec (.armMrc c op1 crn rd 14 op2 crm) s = State.endMrc rd v { s with cp14 := cp } := by
    rw [State.exec_mrc14 op1 crn crm op2 rd passes, State.mrc14, h]
  rw [run]
  exact State.endMrc_takes { s with cp14 := cp } s.draws rd v

/-- MCR to CP14, to a register that can be written. -/
theorem State.mcr14_writes {s : State} {c : Cond} {rd : Reg} {op1 : BitVec 3} {crn crm : BitVec 4}
    {op2 : BitVec 3} {cp : Cp14} (passes : s.passes c = true) (data : rd ≠ 15)
    (h : s.cp14.write op1 crn crm op2 (s.reg rd) = some cp) :
    exec (.armMcr c op1 crn rd 14 op2 crm) s = .next (State.advance { s with cp14 := cp }) := by
  rw [State.exec_mcr14 op1 crn crm op2 passes data, State.mcr14, h]

/-- The DCC Control Register as MRC reads it, by its two bits (R61). -/
theorem Cp14.control_eq (cp : Cp14) :
    cp.control = 0x70000000 ||| ((if cp.w then (1 : Word) else 0) <<< 1) ||| (if cp.r then 1 else 0) := by
  unfold Cp14.control
  cases cp.w <;> cases cp.r <;> rfl

/-- The DCC Control Register as a scan reads it, by its two bits (R61). -/
theorem Cp14.scanControl_eq (cp : Cp14) :
    cp.scanControl = 0x40000000 ||| ((if cp.w then (1 : Word) else 0) <<< 1) ||| (if cp.r then 1 else 0) := by
  unfold Cp14.scanControl
  cases cp.w <;> cases cp.r <;> rfl

/-- A scan chain 2 event with the chain selected (R554). -/
theorem step_scan2 {s : State} {write : Bool} {addr : BitVec 5} {v : Word} {rest : List EnvEvent}
    (h : s.schedule = .scan2 write addr v :: rest) (instr : s.dbg.tapInstr = 0b1100) (path : s.dbg.scanPath = 2) :
    step s = if write then State.scan2Write addr v { s with schedule := rest }
      else State.scan2Read addr { s with schedule := rest } := by
  have selected : s.dbg.selects 2 = true := by
    rw [Debug.selects, instr, path]
    rfl
  unfold step State.stepOnce
  rw [h]
  exact if_pos selected

/-- Settles O48. -/
theorem cp14Operations : Obligations.Cp14Operations := by
  unfold Obligations.Cp14Operations
  intro bit
  constructor
  · intro s c rd passes v reads
    have dbgAbt : (0#31 ++ flagBit s.cp14.dbgAbt : Word) = bit s.cp14.dbgAbt := by
      cases s.cp14.dbgAbt <;> rfl
    refine ⟨fun data => ?_, fun data => ?_, ?_, ?_, ?_⟩
    · exact State.mcr14_writes passes data rfl
    · exact State.mcr14_writes passes data rfl
    · exact State.mrc14_reads rd passes (congrArg (fun v => some (v, s.cp14)) s.cp14.control_eq)
    · exact State.mrc14_reads rd passes rfl
    · exact State.mrc14_reads rd passes (congrArg (fun v => some (v, s.cp14)) dbgAbt)
  · intro s v rest instr path after
    refine ⟨fun h => ?_, fun h => ?_, fun h => ?_, fun h => ?_⟩ <;> rw [step_scan2 h instr path]
    · rfl
    · rfl
    · exact congrArg (fun w => Host.Outcome.next (State.scanned w { s with schedule := rest })) s.cp14.scanControl_eq
    · rfl

end Sys2Proof.Machine
end

section
/-! # The TLB: what answers, what an invalidation leaves, the test operations -/

namespace Sys2Proof.Machine

/-! ## Invalidation -/

/-- A map that keeps what a search accepts and lets through what it does not leaves the search as it is. -/
theorem find?_map_of_fixes {α : Type} {p : α → Bool} {f : α → α} (l : List α)
    (same : ∀ x ∈ l, p (f x) = p x) (fixes : ∀ x ∈ l, p x = true → f x = x) :
    (l.map f).find? p = l.find? p := by
  induction l with
  | nil => rfl
  | cons x xs ih =>
    have head := same x List.mem_cons_self
    have tail := ih (fun y hy => same y (List.mem_cons_of_mem _ hy))
      (fun y hy => fixes y (List.mem_cons_of_mem _ hy))
    cases hits : p x with
    | true => simp [fixes x List.mem_cons_self hits, hits]
    | false => simp [head, hits, tail]

/-- After the TLB is invalidated no entry answers (R138). -/
theorem MemSys.tlbLookup_invalidateTlb (ms : MemSys) (mva : Word) : ms.invalidateTlb.tlbLookup mva = none := by
  simp [MemSys.tlbLookup, MemSys.invalidateTlb, TlbEntry.hits]

/-- What the invalidation of one address makes of an entry (R50). -/
def TlbEntry.dropped (mva : Word) (e : TlbEntry) : TlbEntry := if e.hits mva then { e with valid := false } else e

theorem MemSys.tlb_invalidateTlbEntry (ms : MemSys) (v : Word) :
    (ms.invalidateTlbEntry v).tlb.toList = ms.tlb.toList.map (TlbEntry.dropped v) := by
  rw [MemSys.invalidateTlbEntry, Vector.toList_map]
  rfl

/-- An invalidated entry answers for nothing, another for what it answered for. -/
theorem TlbEntry.hits_dropped (e : TlbEntry) (v mva : Word) :
    (e.dropped v).hits mva = (!e.hits v && e.hits mva) := by
  unfold TlbEntry.dropped
  cases h : e.hits v with
  | true => simp [TlbEntry.hits]
  | false => simp

/-- After the entries of an address are invalidated none answers for it. -/
theorem MemSys.tlbLookup_invalidateTlbEntry (ms : MemSys) (v : Word) :
    (ms.invalidateTlbEntry v).tlbLookup v = none := by
  rw [MemSys.tlbLookup, MemSys.tlb_invalidateTlbEntry]
  simp [TlbEntry.hits_dropped]

/-- An address that no invalidated entry covers is answered as before. -/
theorem MemSys.tlbLookup_invalidateTlbEntry_other {ms : MemSys} {v mva : Word}
    (h : ∀ x ∈ ms.tlb.toList, ¬ (x.hits v = true ∧ x.hits mva = true)) :
    (ms.invalidateTlbEntry v).tlbLookup mva = ms.tlbLookup mva := by
  rw [MemSys.tlbLookup, MemSys.tlb_invalidateTlbEntry, MemSys.tlbLookup]
  have missed (x : TlbEntry) (hx : x ∈ ms.tlb.toList) (hit : x.hits mva = true) : x.hits v = false :=
    Bool.eq_false_iff.2 fun hv => h x hx ⟨hv, hit⟩
  refine find?_map_of_fixes _ (fun x hx => ?_) (fun x hx hit => ?_)
  · rw [TlbEntry.hits_dropped]
    cases hit : x.hits mva with
    | true => simp [missed x hx hit]
    | false => simp
  · rw [TlbEntry.dropped, if_neg (by simp [missed x hx hit])]

/-! ## The CAM match -/

/-- Bits [24:22] of a match result (R58). -/
theorem withMatchBits_getLsbD (w : Word) (bits : BitVec 3) {j : Nat} (h : j < 3) :
    (withMatchBits w bits).getLsbD (22 + j) = bits.getLsbD j := by
  simp only [withMatchBits, BitVec.getLsbD_append, BitVec.getLsbD_extractLsb']
  simp [h]

/-- The match bits of an entry that answers: protection fault, domain fault, no miss. -/
theorem matchBits_getLsbD (prot dom : Bool) :
    (flagBit prot ++ flagBit dom ++ 0#1 : BitVec 3).getLsbD 0 = false ∧
      (flagBit prot ++ flagBit dom ++ 0#1 : BitVec 3).getLsbD 1 = dom ∧
      (flagBit prot ++ flagBit dom ++ 0#1 : BitVec 3).getLsbD 2 = prot := by
  cases prot <;> cases dom <;> decide

/-- The match bits of a miss. -/
theorem missBits_getLsbD (free : BitVec 2) : (free ++ 1#1 : BitVec 3).getLsbD 0 = true := by
  revert free; decide

/-- A CAM match that misses sets bit 22 (R58). -/
theorem MemSys.tlbCamMatch_miss {cp : Cp15} {v : Word} {ms : MemSys} (h : ms.tlbLookup v = none) :
    (ms.tlbCamMatch cp v).c15m.getLsbD 22 = true := by
  unfold MemSys.tlbCamMatch
  rw [h]
  exact (withMatchBits_getLsbD _ _ (show 0 < 3 by omega)).trans (missBits_getLsbD _)

/-- What a CAM match that hits tells of a read in a privileged mode (R58, R128, R129). -/
theorem MemSys.tlbCamMatch_hit {cp : Cp15} {v : Word} {ms : MemSys} {e : TlbEntry}
    (h : ms.tlbLookup v = some e) :
    (ms.tlbCamMatch cp v).c15m.getLsbD 22 = false ∧
      (ms.tlbCamMatch cp v).c15m.getLsbD 23 = (cp.domainAccess e.domain == 0 || cp.domainAccess e.domain == 2) ∧
      (ms.tlbCamMatch cp v).c15m.getLsbD 24 =
        (cp.domainAccess e.domain != 3 && !permits cp.systemBit cp.romBit e.ap true false) := by
  unfold MemSys.tlbCamMatch
  rw [h]
  have bits := matchBits_getLsbD
    (cp.domainAccess e.domain != 3 && !permits cp.systemBit cp.romBit e.ap true false)
    (cp.domainAccess e.domain == 0 || cp.domainAccess e.domain == 2)
  exact ⟨(withMatchBits_getLsbD _ _ (show 0 < 3 by omega)).trans bits.1,
    (withMatchBits_getLsbD _ _ (show 1 < 3 by omega)).trans bits.2.1,
    (withMatchBits_getLsbD _ _ (show 2 < 3 by omega)).trans bits.2.2⟩

/-- For a client the check is the permission table's (R128). -/
theorem TlbEntry.check_client {cp : Cp15} {e : TlbEntry} (k : Access) (priv : Bool)
    (h : cp.domainAccess e.domain = 1) :
    e.check cp k priv ≠ none ↔ permits cp.systemBit cp.romBit e.ap priv k.writes = false := by
  unfold TlbEntry.check
  rw [h]
  cases permits cp.systemBit cp.romBit e.ap priv k.writes <;> simp

/-- A CAM match leaves the TLB and its pointers. -/
theorem MemSys.tlbCamMatch_eq (cp : Cp15) (v : Word) (ms : MemSys) :
    ms.tlbCamMatch cp v =
      { ms with c15m := (ms.tlbCamMatch cp v).c15m, draws := (ms.tlbCamMatch cp v).draws } := by
  unfold MemSys.tlbCamMatch
  split <;> rfl

/-- Settles O52. -/
theorem tlbOperations : Obligations.TlbOperations := by
  intro s c rd big mva e passes priv data v ms next does
  have write {op1 : BitVec 3} {crn crm : BitVec 4} {op2 : BitVec 3} {t : State}
      (h : s.cp15Write op1 crn crm op2 v = .ok t) :
      exec (.armMcr c op1 crn rd 15 op2 crm) s = .next t.advance := State.mcr15_writes passes priv data h
  refine ⟨fun hit => ?_, fun crm hcrm => ?_, fun on => ⟨?_, ?_, ?_, ?_, ?_, ?_⟩, fun off => ?_⟩
  · unfold MemSys.translate
    rw [hit]
  · have three : crm = 5 ∨ crm = 6 ∨ crm = 7 := by simpa using hcrm
    have all : s.cp15Write 0 8 crm 0 v = .ok { s with memsys := ms.invalidateTlb } := by
      rcases three with rfl | rfl | rfl <;> rfl
    have one : s.cp15Write 0 8 crm 1 v = .ok { s with memsys := ms.invalidateTlbEntry v } := by
      rcases three with rfl | rfl | rfl <;> rfl
    constructor
    · exact ⟨_, write all, rfl, rfl, rfl, rfl, rfl, rfl, rfl, ms.tlbLookup_invalidateTlb mva⟩
    · exact ⟨_, write one, rfl, rfl, rfl, rfl, rfl, rfl, rfl, ms.tlbLookup_invalidateTlbEntry v,
        MemSys.tlbLookup_invalidateTlbEntry_other⟩
  · exact ⟨_, write (if_pos on), rfl, rfl, rfl, rfl, rfl, rfl, rfl, fun zero => if_pos zero⟩
  · exact ⟨_, write (if_pos on), rfl, rfl, rfl, rfl, rfl, rfl, rfl⟩
  · exact ⟨_, write (if_pos on), rfl, rfl, rfl, rfl, rfl, rfl, rfl⟩
  · exact ⟨_, write (if_pos on), rfl, rfl, rfl, rfl, rfl, rfl, rfl⟩
  · refine ⟨_, write (if_pos on), rfl, rfl, rfl, rfl, rfl, rfl, rfl, fun i hi => ?_⟩
    exact Vector.getElem_set_ne ms.ram2Pointer.toFin.isLt i.isLt (fun same => hi (Fin.ext same.symm))
  · have kept := ms.tlbCamMatch_eq s.cp15 v
    have mem : (ms.tlbCamMatch s.cp15 v).mem = ms.mem := by rw [kept]
    have cache : (ms.tlbCamMatch s.cp15 v).cache = ms.cache := by rw [kept]
    refine ⟨_, write (if_pos on), rfl, rfl, rfl, rfl, mem, cache, kept, ?_⟩
    split
    · rename_i miss
      exact MemSys.tlbCamMatch_miss miss
    · rename_i e hit
      obtain ⟨miss, dom, prot⟩ := MemSys.tlbCamMatch_hit (cp := s.cp15) hit
      intro d
      refine ⟨miss, ?_, fun client => ?_, fun manager => ?_⟩
      · refine (Bool.eq_iff_iff.1 dom).trans ?_
        simp [Cp15.domainAccess, d]
      · refine (Bool.eq_iff_iff.1 prot).trans ?_
        rw [TlbEntry.check_client _ _ client, show s.cp15.domainAccess e.domain = 1 from client]
        simp [Access.writes]
      · refine prot.trans ?_
        rw [show s.cp15.domainAccess e.domain = 3 from manager]
        rfl
  · intro x hx
    have refused (f : MemSys → MemSys) : s.testOp f = .error .testStateOff := by simp [State.testOp, testOnly, off]
    refine State.mcr15_refuses passes priv data ?_
    simp only [List.mem_cons, List.not_mem_nil, or_false] at hx
    rcases hx with rfl | rfl | rfl | rfl | rfl | rfl | rfl | rfl <;> exact refused _

end Sys2Proof.Machine
end

section
/-! # The reset input -/

namespace Sys2Proof.Machine

/-! ## The memory system after the reset input -/

theorem MemSys.cacheFind_invalidateCache (ms : MemSys) (mva : Word) : ms.invalidateCache.cacheFind mva = none := by
  simp [MemSys.cacheFind, MemSys.invalidateCache]

theorem MemSys.cacheFind_congr {a b : MemSys} (h : b.cache = a.cache) (mva : Word) :
    b.cacheFind mva = a.cacheFind mva := by
  unfold MemSys.cacheFind
  rw [h]

theorem MemSys.tlbLookup_congr {a b : MemSys} (h : b.tlb = a.tlb) (mva : Word) :
    b.tlbLookup mva = a.tlbLookup mva := by
  unfold MemSys.tlbLookup
  rw [h]

/-- The buffered writes that reset finds have reached memory or not: no transfer is driven for them (R570). -/
theorem MemSys.resetBuffer_bus (big : Bool) (l : List BufferedWrite) (ms : MemSys) :
    (MemSys.resetBuffer big l ms).bus = ms.bus ∧ (MemSys.resetBuffer big l ms).answers = ms.answers := by
  induction l generalizing ms with
  | nil => exact ⟨rfl, rfl⟩
  | cons e rest ih =>
    have taken : (ms.draw.2.taken big e.size e.pa e.data).bus = ms.bus ∧
        (ms.draw.2.taken big e.size e.pa e.data).answers = ms.answers := by
      unfold MemSys.taken
      split <;> exact ⟨rfl, rfl⟩
    unfold MemSys.resetBuffer
    simp only
    split
    · exact ⟨(ih _).1.trans taken.1, (ih _).2.trans taken.2⟩
    · exact ih _

/-- The instruction reads that the core makes while HRESETn is LOW (R571). -/
def resetRead (priv : Bool) (pa : Word) : BusTransfer :=
  ⟨pa, .word, none, some (0#2 ++ flagBit priv ++ 0#1), false, .single, .nonseq⟩

/-- Where no answer waits, the reads while HRESETn is LOW stand on the bus one word after the other (R571). -/
theorem MemSys.resetReads_bus (priv : Bool) (n : Nat) (pa : Word) {ms : MemSys} (h : ms.answers = []) :
    (ms.resetReads priv n pa).bus =
      ms.bus ++ (List.range n).map fun k => resetRead priv (pa + BitVec.ofNat 32 (4 * k)) := by
  induction n generalizing pa ms with
  | zero => simp [MemSys.resetReads]
  | succ n ih =>
    have drives : (ms.transfer (resetRead priv pa)).2 =
        { ms with answers := [], bus := ms.bus ++ [resetRead priv pa] } := by
      unfold MemSys.transfer
      rw [h, MemSys.drive, BusTransfer.drivenAfter_nonseq _ rfl]
    have later (k : Nat) : pa + 4#32 + BitVec.ofNat 32 (4 * k) = pa + BitVec.ofNat 32 (4 * (k + 1)) := by
      rw [BitVec.add_assoc, ← BitVec.ofNat_add, Nat.mul_succ, Nat.add_comm 4]
    unfold MemSys.resetReads
    have rest := ih (pa + 4) (ms := (ms.transfer (resetRead priv pa)).2) (by rw [drives])
    refine rest.trans ?_
    rw [drives, List.range_succ_eq_map]
    simp [later, Function.comp_def]

/-- Reads of other masters' silence leave memory (R571). -/
theorem MemSys.resetReads_mem (priv : Bool) (n : Nat) (pa : Word) {ms : MemSys}
    (h : ∀ x ∈ ms.answers, x.writes = []) : (ms.resetReads priv n pa).mem = ms.mem := by
  induction n generalizing pa ms with
  | zero => rfl
  | succ n ih =>
    obtain ⟨-, bus, e⟩ := MemSys.drive_alone (resetRead priv pa) false (ms := ms)
      (fun a ha => h a (answersTaken_mem ha))
    have drives : (ms.transfer (resetRead priv pa)).2 =
        { ms with answers := ms.answers.drop (answersTaken ms.answers).length, bus := bus } := e
    have rest := ih (pa + 4) (ms := (ms.transfer (resetRead priv pa)).2) (by
      rw [drives]
      exact fun x hx => h x (List.mem_of_mem_drop hx))
    exact rest.trans (by rw [drives])

/-- With nothing buffered the reset of the memory system leaves memory and the bus. -/
theorem MemSys.warmReset_empty (big : Bool) {ms : MemSys} (h : ms.wbuf = []) :
    (ms.warmReset big).mem = ms.mem ∧ (ms.warmReset big).answers = ms.answers := by
  unfold MemSys.warmReset
  rw [h]
  exact ⟨rfl, rfl⟩

theorem MemSys.warmReset_bus (big : Bool) (ms : MemSys) :
    (ms.warmReset big).bus = ms.bus ∧ (ms.warmReset big).answers = ms.answers :=
  MemSys.resetBuffer_bus big ms.wbuf { ms with wbuf := [] }

/-! ## The registers after the reset input -/

theorem State.warmReset_regs (v : Bool) (first : Word) (reads : Nat) (s : State) :
    SameRegsBut [phys .svc 14] s (s.warmReset v first reads) := by
  intro k hk
  have other : k ≠ phys .svc 14 := by simpa using hk
  exact (State.setBankReg_getElem .svc 14 _ _ k (by decide)).trans (if_neg other)

theorem State.warmReset_spsrOf (v : Bool) (first : Word) (reads : Nat) (s : State) {m : Mode} (h : m ≠ .svc) :
    (s.warmReset v first reads).spsrOf m = s.spsrOf m := by
  cases m with
  | svc => exact absurd rfl h
  | usr | sys | fiq | irq | abt | und => rfl

theorem State.warmReset_cp14 (v : Bool) (first : Word) (reads : Nat) (s : State) :
    (s.warmReset v first reads).cp14 = s.cp14 := by
  simp [State.warmReset]

/-- The CPSR above its control byte is as it was. -/
theorem State.warmReset_cpsr_high (v : Bool) (first : Word) (reads : Nat) (s : State) {j : Nat} (h : 8 ≤ j) :
    (s.warmReset v first reads).cpsr.getLsbD j = s.cpsr.getLsbD j := by
  rw [State.warmReset_cpsr, BitVec.getLsbD_append, if_neg (by omega), BitVec.getLsbD_extractLsb']
  by_cases top : j < 32
  · simp [show j - 8 < 24 by omega, show 8 + (j - 8) = j by omega]
  · simp [show ¬ j - 8 < 24 by omega, BitVec.getLsbD_of_ge _ _ (show 32 ≤ j by omega)]

/-- What the reset input leaves, whatever it finds (R80, R570). -/
structure State.IsReset (v : Bool) (t : State) : Prop where
  mode : modeField t.cpsr = Mode.svc.bits
  thumb : t.thumb = false
  irq : t.cpsr.getLsbD 7 = true
  fiq : t.cpsr.getLsbD 6 = true
  pc : t.pc = if v then 0xffff0000 else 0
  control : t.cp15.control = ((if v then 0x2000 else 0) ||| 0x70)
  pid : t.cp15.pid = 0
  testOn : t.cp15.testOn = false
  wbuf : t.memsys.wbuf = []
  cache : ∀ mva, t.memsys.cacheFind mva = none
  tlb : ∀ mva, t.memsys.tlbLookup mva = none
  stuck : t.stuck = none

theorem State.isReset_warmReset (v : Bool) (first : Word) (reads : Nat) (s : State) :
    (s.warmReset v first reads).IsReset v := by
  have bus := MemSys.onBus_resetReads s.privileged reads (first &&& 0xfffffffc)
    (s.memsys.warmReset s.platform.bigEndian)
  constructor
  case mode => rw [State.warmReset_cpsr, modeField_resetPsr]
  case thumb => exact State.warmReset_thumb ..
  case irq => rw [State.warmReset_cpsr, resetPsr_getLsbD _ (by omega)]; rfl
  case fiq => rw [State.warmReset_cpsr, resetPsr_getLsbD _ (by omega)]; rfl
  case pc => rfl
  case control =>
    rw [State.warmReset_cp15]
    cases v <;> rfl
  case pid => rw [State.warmReset_cp15]
  case testOn => rw [State.warmReset_cp15]
  case wbuf => rw [State.warmReset_memsys, bus.wbuf, MemSys.warmReset_wbuf]
  case cache =>
    intro mva
    rw [State.warmReset_memsys, MemSys.cacheFind_congr bus.cache]
    exact MemSys.cacheFind_invalidateCache _ mva
  case tlb =>
    intro mva
    rw [State.warmReset_memsys, MemSys.tlbLookup_congr bus.tlb]
    exact MemSys.tlbLookup_invalidateTlb _ mva
  case stuck => rfl

/-! ## The instruction that reset abandons -/

theorem oneOf_pick {α : Type} (happened : Bool) (after before : α) :
    OneOf (pick happened after before) before after := by
  cases happened
  · exact .inl rfl
  · exact .inr rfl

theorem OneOf.map {α β : Type} (f : α → β) {x before after : α} (h : OneOf x before after) :
    OneOf (f x) (f before) (f after) := h.imp (congrArg f) (congrArg f)

/-- Some of an instruction's bytes taken: each byte is as before or the instruction's. -/
theorem Memory.get_takeBytes {after m : Memory} (l : List Word) (h : m.wf = true) (x : Nat) :
    OneOf ((Memory.takeBytes after l m).get x) (m.get x) (after.get x) := by
  induction l generalizing m with
  | nil => exact .inl rfl
  | cons a rest ih =>
    have got := Memory.get_set (v := after.get a.toNat) (a := a.toNat) (x := x) h
    rcases ih (Memory.wf_set (v := after.get a.toNat) h a.isLt) with kept | made
    · by_cases here : x = a.toNat
      · exact .inr (kept.trans (by rw [got, if_pos here, here]))
      · exact .inl (kept.trans (by rw [got, if_neg here]))
    · exact .inr made

/-- Each flag after an abandoned instruction is as before or the instruction's (R570). -/
theorem State.abandon_cpsr (a : Abandoned) (s u : State) {j : Nat} (h : 28 ≤ j) :
    OneOf ((s.abandon a u).cpsr.getLsbD j) (s.cpsr.getLsbD j) (u.cpsr.getLsbD j) := by
  unfold State.abandon
  rw [withFlags_getLsbD, if_neg (by omega)]
  split_ifs with v c z n
  · exact v ▸ oneOf_pick ..
  · exact c ▸ oneOf_pick ..
  · exact z ▸ oneOf_pick ..
  · exact n ▸ oneOf_pick ..
  · exact .inl (BitVec.getLsbD_of_ge _ _ (by omega)).symm

theorem State.abandon_regs (a : Abandoned) (s u : State) (k : Fin 30) :
    OneOf (s.abandon a u).regs[k] s.regs[k] u.regs[k] := by
  have e : (s.abandon a u).regs[k] = pick (a.regs.getLsbD k.val) u.regs[k] s.regs[k] := by
    simp [State.abandon]
  rw [e]
  exact oneOf_pick ..

theorem State.abandon_spsrOf (a : Abandoned) (s u : State) (m : Mode) :
    OneOf ((s.abandon a u).spsrOf m) (s.spsrOf m) (u.spsrOf m) := by
  cases m with
  | usr | sys => simp only [State.spsrOf]; exact .inl rfl
  | fiq => exact (oneOf_pick (a.spsrs.getLsbD 0) u.spsrFiq s.spsrFiq).map some
  | irq => exact (oneOf_pick (a.spsrs.getLsbD 1) u.spsrIrq s.spsrIrq).map some
  | svc => exact (oneOf_pick (a.spsrs.getLsbD 2) u.spsrSvc s.spsrSvc).map some
  | abt => exact (oneOf_pick (a.spsrs.getLsbD 3) u.spsrAbt s.spsrAbt).map some
  | und => exact (oneOf_pick (a.spsrs.getLsbD 4) u.spsrUnd s.spsrUnd).map some

theorem State.abandoned_eq {amid : Option Abandoned} {s : State}
    (h : amid = none ∨ ∀ u, s.coreStep ≠ .next u) : s.abandoned amid = s := by
  unfold State.abandoned
  split
  · rfl
  · split
    · rename_i a u step
      exact absurd step (h.resolve_left nofun u)
    · rfl

theorem State.abandoned_some {a : Abandoned} {s u : State} (h : s.coreStep = .next u) :
    s.abandoned (some a) = s.abandon a u := by
  simp only [State.abandoned, h]

/-- Memory after an abandoned instruction and the reset: each byte is as before or the instruction's (R570). -/
theorem State.abandon_mem (a : Abandoned) {s u : State} (v : Bool) (first : Word) (reads : Nat)
    (canonical : s.memsys.mem.wf = true) (empty : s.memsys.wbuf = [])
    (quiet : reads = 0 ∨ ∀ x ∈ u.memsys.answers, x.writes = []) (x : Nat) :
    OneOf (((s.abandon a u).warmReset v first reads).memsys.mem.get x) (s.memsys.mem.get x)
      ((u.memsys.drain s.platform.bigEndian).mem.get x) := by
  have flushed := MemSys.warmReset_empty s.platform.bigEndian (ms := (s.abandon a u).memsys) empty
  have mem : ((s.abandon a u).warmReset v first reads).memsys.mem = (s.abandon a u).memsys.mem := by
    rw [State.warmReset_memsys]
    refine Eq.trans ?_ flushed.1
    rcases quiet with none | silent
    · rw [none]
      rfl
    · refine MemSys.resetReads_mem _ _ _ fun y hy => silent y ?_
      have answers := flushed.2 ▸ hy
      exact answers
  rw [mem]
  exact Memory.get_takeBytes a.bytes canonical x

/-- Settles O58. -/
theorem resetState : Obligations.ResetState := by
  refine ⟨fun s v amid first reads rest schedule => ?_, rfl, rfl, rfl, rfl, rfl, rfl, fun mva => ?_, fun mva => ?_⟩
  · obtain ⟨mode, thumb, irq, fiq, pc, control, pid, testOn, wbuf, cache, tlb, stuck⟩ :=
      State.isReset_warmReset v first reads (State.abandoned amid { s with schedule := rest })
    have run : step s = .next ((State.abandoned amid { s with schedule := rest }).warmReset v first reads) := by
      unfold step State.stepOnce
      rw [schedule]
      rfl
    refine ⟨_, run, mode, thumb, irq, fiq, pc, control, pid, testOn, wbuf, cache, tlb, stuck,
      fun between => ?_, fun between silent => ?_, fun a u amid step => ?_⟩
    · rw [State.abandoned_eq between]
      refine ⟨?_, ?_, State.warmReset_regs v first reads _, fun m hm => State.warmReset_spsrOf _ _ _ _ hm,
        State.warmReset_cp14 ..⟩
      · apply BitVec.eq_of_getLsbD_eq
        intro i hi
        simp only [BitVec.getLsbD_extractLsb', State.warmReset_cpsr_high _ _ _ _ (show 8 ≤ 28 + i by omega)]
      · rw [State.warmReset_cp15]
    · rw [State.abandoned_eq (.inl between), State.warmReset_memsys]
      have bus := MemSys.warmReset_bus s.platform.bigEndian s.memsys
      refine (MemSys.resetReads_bus s.privileged reads _ (bus.2.trans silent)).trans ?_
      rw [bus.1]
      rfl
    · subst amid
      rw [State.abandoned_some step]
      refine ⟨fun k hk => ?_, fun j hj => ?_, fun m hm => ?_, ?_, ?_, ?_, ?_, ?_, ?_, ?_, ?_, ?_, ?_,
        fun canonical empty quiet x => State.abandon_mem a v first reads canonical empty quiet x⟩
      · rw [State.warmReset_regs v first reads (State.abandon a { s with schedule := rest } u) k (by simpa using hk)]
        exact State.abandon_regs ..
      · rw [State.warmReset_cpsr_high _ _ _ _ (by omega)]
        exact State.abandon_cpsr _ _ _ hj
      · rw [State.warmReset_spsrOf _ _ _ _ hm]
        exact State.abandon_spsrOf ..
      all_goals simp only [State.warmReset_cp15, State.warmReset_cp14]; exact oneOf_pick ..
  · simp [State.reset, MemSys.reset, MemSys.cacheFind]
  · simp [State.reset, MemSys.reset, MemSys.tlbLookup, TlbEntry.hits]

end Sys2Proof.Machine
end

section
/-! # Alignment, FCSE, domains and permissions, byte order, the Prefetch Abort -/

namespace Sys2Proof.Machine

/-! ## The alignment check -/

theorem extract_low2_eq_zero_iff (a : Word) : a.extractLsb' 0 2 = 0#2 ↔ a.toNat % 4 = 0 := by
  rw [← BitVec.toNat_inj, BitVec.extractLsb'_toNat]
  simp

theorem getElem_zero_eq_true_iff (a : Word) : a[0] = true ↔ a.toNat % 2 = 1 := by
  rw [← BitVec.getLsbD_eq_getElem, BitVec.getLsbD, Nat.testBit_zero, decide_eq_true_eq]

/-- The accesses the alignment check is for (R97): a fetch and a byte are none. -/
theorem misaligned_iff (k : Access) (n : Size) (a : Word) :
    misaligned k n a = true ↔
      k ≠ .fetch ∧ ((n = .word ∧ a.toNat % 4 ≠ 0) ∨ (n = .half ∧ a.toNat % 2 ≠ 0)) := by
  cases n <;> simp [misaligned, extract_low2_eq_zero_iff, getElem_zero_eq_true_iff]

theorem MemSys.resolve_misaligned {big : Bool} {cp : Cp15} {k : Access} {n : Size} {priv : Bool} {va : Word}
    {ms : MemSys} (h : (cp.alignOn && misaligned k n va) = true) :
    ms.resolve big cp k n priv va =
      (.abort (ms.alignmentFault (fcse cp.pid va)).1, (ms.alignmentFault (fcse cp.pid va)).2) := by
  unfold MemSys.resolve
  rw [if_pos h]

theorem MemSys.resolve_aligned {big : Bool} {cp : Cp15} {k : Access} {n : Size} {priv : Bool} {va : Word}
    {ms : MemSys} (h : (cp.alignOn && misaligned k n va) = false) :
    ms.resolve big cp k n priv va = ms.route big cp k priv (accessMva cp n va) := by
  unfold MemSys.resolve
  simp [h]

/-- The codes of the domain and permission checks (R131). -/
theorem TlbEntry.check_code {cp : Cp15} {k : Access} {priv : Bool} {e : TlbEntry} {code : BitVec 4}
    (h : e.check cp k priv = some code) : code ∈ [(0b1001 : BitVec 4), 0b1011, 0b1101, 0b1111] := by
  unfold TlbEntry.check at h
  split at h
  · split at h
    · cases h
    · split at h <;> simp [← Option.some.inj h]
  · cases h
  · split at h <;> simp [← Option.some.inj h]

/-- The codes of a translation fault (R131). -/
theorem MemSys.translate_code {big : Bool} {cp : Cp15} {mva : Word} {ms : MemSys} {i : AbortInfo}
    (h : (ms.translate big cp mva).1 = .abort i) : i.code ∈ [(0b0101 : BitVec 4), 0b0111] := by
  unfold MemSys.translate at h
  split at h
  · cases h
  · split at h <;> cases h <;> simp

/-- The codes of translation and its checks (R131). -/
theorem MemSys.route_code {big : Bool} {cp : Cp15} {k : Access} {priv : Bool} {mva : Word} {ms : MemSys}
    {i : AbortInfo} (h : (ms.route big cp k priv mva).1 = .abort i) :
    i.code ∈ [(0b0101 : BitVec 4), 0b0111, 0b1001, 0b1011, 0b1101, 0b1111] := by
  unfold MemSys.route at h
  split at h
  · rcases translated : ms.translate big cp mva with ⟨e | fault | r, m⟩ <;> rw [translated] at h
    · simp only at h
      split at h
      · cases h
      · rename_i code checked
        cases h
        have := TlbEntry.check_code checked
        simp only [List.mem_cons] at this ⊢
        tauto
    · cases h
      have := MemSys.translate_code (congrArg Prod.fst translated)
      simp only [List.mem_cons] at this ⊢
      tauto
    · cases h
  · cases h

/-- Settles O32. -/
theorem alignmentCheck : Obligations.AlignmentCheck := by
  intro s k n priv va off
  refine ⟨fun on data misaligned => ?_, fun passes i aborted => ?_⟩
  · have faults : (s.cp15.alignOn && Machine.misaligned k n va) = true := by
      rw [on, (misaligned_iff k n va).2 ⟨data, misaligned⟩]; rfl
    refine ⟨_, _, congrArg Prod.fst (MemSys.resolve_misaligned faults), ?_⟩
    split
    · exact .inr rfl
    · exact .inl rfl
  · have aligned : (s.cp15.alignOn && Machine.misaligned k n va) = false := by
      rw [Bool.and_eq_false_iff, ← Bool.not_eq_true (Machine.misaligned k n va), misaligned_iff]
      tauto
    unfold State.Aborts at aborted
    rw [MemSys.resolve_aligned aligned] at aborted
    have codes := MemSys.route_code aborted
    revert codes
    generalize i.code = code
    revert code
    decide

/-! ## FCSE and the flat address -/

theorem fcse_toNat (pid : BitVec 7) (va : Word) :
    (fcse pid va).toNat = if va.toNat < 2 ^ 25 then pid.toNat * 2 ^ 25 + va.toNat else va.toNat := by
  have low : va.extractLsb' 25 7 = 0#7 ↔ va.toNat < 2 ^ 25 := by
    rw [← BitVec.toNat_inj, BitVec.extractLsb'_toNat, Nat.shiftRight_eq_div_pow]
    have := va.isLt
    simp only [BitVec.toNat_ofNat]
    omega
  unfold fcse
  simp only [low]
  split
  · rename_i bottom
    rw [BitVec.toNat_append, BitVec.extractLsb'_toNat, Nat.shiftRight_zero, Nat.mod_eq_of_lt bottom,
      ← Nat.shiftLeft_add_eq_or_of_lt bottom, Nat.shiftLeft_eq]
  · rfl

/-- Settles O49. -/
theorem flatAddress : Obligations.FlatAddress := by
  intro s k n priv va
  refine ⟨fcse_toNat _ _, fun off passes => ?_⟩
  have aligned : (s.cp15.alignOn && misaligned k n va) = false := by
    rw [Bool.and_eq_false_iff, ← Bool.not_eq_true (misaligned k n va), misaligned_iff]
    rcases passes with h | h | h | h | h <;> simp [h]
  have mmu : s.cp15.mmuOn = false := off
  unfold State.Reaches
  rw [MemSys.resolve_aligned aligned]
  unfold MemSys.route
  rw [mmu]
  cases n <;> rfl

/-! ## Domains and permissions -/

theorem Access.writes_iff (k : Access) :
    k.writes = true ↔ k = .write ∨ k = .swapWrite ∨ k = .blockWrite ∨ k = .nextWrite := by
  cases k <;> simp [Access.writes]

/-- The rows of the permission table (R129). -/
theorem permits_iff (sBit rBit : Bool) (ap : BitVec 2) (priv writes : Bool) :
    permits sBit rBit ap priv writes = true ↔ ¬ (sBit = true ∧ rBit = true) ∧
      ((ap = 0 ∧ ¬ writes = true ∧ (rBit = true ∨ (sBit = true ∧ priv = true))) ∨ (ap = 1 ∧ priv = true) ∨
        (ap = 2 ∧ (priv = true ∨ ¬ writes = true)) ∨ ap = 3) := by
  revert sBit rBit ap priv writes
  decide

/-- The three kinds of domain access (R128). -/
theorem TlbEntry.check_eq (cp : Cp15) (k : Access) (priv : Bool) (e : TlbEntry) :
    e.check cp k priv =
      if cp.domainAccess e.domain = 1 then
        if permits cp.systemBit cp.romBit e.ap priv k.writes then none
        else some (if e.isSection then 0b1101 else 0b1111)
      else if cp.domainAccess e.domain = 3 then none
      else some (if e.isSection then 0b1001 else 0b1011) := by
  unfold TlbEntry.check
  generalize cp.domainAccess e.domain = d
  obtain rfl | rfl | rfl | rfl : d = 0 ∨ d = 1 ∨ d = 2 ∨ d = 3 := by revert d; decide
  all_goals rfl

theorem TlbEntry.isSection_iff (e : TlbEntry) : e.isSection = true ↔ e.size = .mb1 := by
  simp [TlbEntry.isSection]

/-- Settles O50. -/
theorem domainAndPermission : Obligations.DomainAndPermission := by
  intro cp k priv e d sBit rBit writes allowed
  have permitted : permits cp.systemBit cp.romBit e.ap priv k.writes = true ↔ allowed := by
    rw [permits_iff]
    simp only [Access.writes_iff]
    rfl
  have field : cp.domainAccess e.domain = d := rfl
  simp only [TlbEntry.check_eq, field, permitted, TlbEntry.isSection_iff]
  refine ⟨fun h => ?_, fun h => ?_, fun h may => ?_, fun h may => ?_⟩
  · rcases h with h | h <;> rw [h] <;> rfl
  · rw [h]; rfl
  · rw [h]; exact if_pos may
  · rw [h]; exact if_neg may

/-! ## Byte order -/

/-- The lanes of a word of memory (R93). -/
theorem Memory.word_lane (big : Bool) (m : Memory) (pa : Word) {i : Nat} (h : i < 4) :
    (m.word big pa).extractLsb' (8 * i) 8 = m.get (laneAddr big pa i) := by
  unfold Memory.word
  obtain rfl | rfl | rfl | rfl : i = 0 ∨ i = 1 ∨ i = 2 ∨ i = 3 := by omega
  all_goals
    repeat first | rw [extract_append_high _ _ _ _ (by omega)] | rw [extract_append_low _ _ _ _ (by omega)]
    simp

/-- Two adjacent lanes of a word of memory (R93). -/
theorem Memory.word_half (big : Bool) (m : Memory) (pa : Word) {k : Nat} (h : k < 2) :
    (m.word big pa).extractLsb' (16 * k) 16 =
      (m.get (laneAddr big pa (2 * k + 1)) ++ m.get (laneAddr big pa (2 * k)) : Half) := by
  rw [← Memory.word_lane big m pa (show 2 * k + 1 < 4 by omega),
    ← Memory.word_lane big m pa (show 2 * k < 4 by omega), show 8 * (2 * k + 1) = 8 * (2 * k) + 8 by omega,
    extract_join, show 8 * (2 * k) = 16 * k by omega]

/-- The byte a read takes is the one at its address. -/
theorem lanes_byte (big : Bool) (m : Memory) (a : Word) :
    lanes big .byte a (m.word big a) = (m.get a.toNat).zeroExtend 32 := by
  unfold lanes
  simp only
  rw [Memory.word_lane big m a (by split <;> omega)]
  congr 2
  unfold laneAddr
  cases big <;> simp <;> omega

/-- The halfword a read takes at an even address. -/
theorem lanes_half (big : Bool) (m : Memory) {a : Word} (even : a.toNat % 2 = 0) :
    lanes big .half a (m.word big a) =
      ((if big then m.get a.toNat ++ m.get (a.toNat + 1) else m.get (a.toNat + 1) ++ m.get a.toNat) : Half).zeroExtend
        32 := by
  unfold lanes
  simp only
  rw [Memory.word_half big m a (by split <;> omega)]
  congr 1
  unfold laneAddr
  cases big
  · simp only [Bool.false_eq_true, if_false]
    congr 2 <;> omega
  · simp only [if_true]
    congr 2 <;> omega

/-- The bytes of a word at an aligned address. -/
theorem Memory.word_aligned (big : Bool) (m : Memory) {a : Word} (aligned : a.toNat % 4 = 0) :
    m.word big a =
      if big then m.get a.toNat ++ m.get (a.toNat + 1) ++ m.get (a.toNat + 2) ++ m.get (a.toNat + 3)
      else m.get (a.toNat + 3) ++ m.get (a.toNat + 2) ++ m.get (a.toNat + 1) ++ m.get a.toNat := by
  have base : 4 * (a.toNat / 4) = a.toNat := by omega
  cases big <;> simp [Memory.word, laneAddr, base]

/-- A word that was stored is read back. -/
theorem Memory.word_setWord {m : Memory} (big : Bool) (a v : Word) (h : m.wf = true) :
    (m.setWord big a v).word big a = v := by
  have lane (i : Nat) (hi : i < 4) :
      (m.setWord big a v).get (laneAddr big a i) = v.extractLsb' (8 * i) 8 := by
    rw [Memory.get_setWord h]
    unfold laneAddr
    cases big
    · rw [if_pos (by simp; omega)]; congr 1; simp; omega
    · rw [if_pos (by simp; omega)]; congr 1; simp; omega
  unfold Memory.word
  rw [lane 0 (by omega), lane 1 (by omega), lane 2 (by omega), lane 3 (by omega)]
  show ((v.extractLsb' (16 + 8) 8 ++ v.extractLsb' 16 8) ++ v.extractLsb' 8 8) ++ v.extractLsb' 0 8 = v
  rw [extract_join v 16 8 8]
  show (v.extractLsb' (8 + 8) 16 ++ v.extractLsb' 8 8) ++ v.extractLsb' 0 8 = v
  rw [extract_join v 8 16 8]
  exact (extract_join v 0 24 8).trans (BitVec.extractLsb'_eq_self)

/-- Settles O55. -/
theorem byteOrder : Obligations.ByteOrder := by
  intro big m a v canonical read
  refine ⟨lanes_byte .., lanes_half big m, fun aligned => Memory.word_aligned big m aligned, ?_, fun even => ?_,
    Memory.word_setWord big a v canonical⟩
  · simp only [read]
    rw [lanes_byte, Memory.get_store canonical]
    simp [storedByte]
  · simp only [read]
    rw [lanes_half _ _ even, Memory.get_store canonical, Memory.get_store canonical]
    have next : (a.toNat + 1) / 2 = a.toNat / 2 := by omega
    have odd : (a.toNat + 1) % 2 = 1 := by omega
    have halves := congrArg (BitVec.setWidth 32) (extract_join v 0 8 8)
    cases big <;> simpa [storedByte, next, even, odd] using halves

/-! ## The Prefetch Abort -/

/-- The saved status words of a state are its five fields. -/
theorem State.spsrOf_congr {s t : State} (fiq : t.spsrFiq = s.spsrFiq) (irq : t.spsrIrq = s.spsrIrq)
    (svc : t.spsrSvc = s.spsrSvc) (abt : t.spsrAbt = s.spsrAbt) (und : t.spsrUnd = s.spsrUnd) (m : Mode) :
    t.spsrOf m = s.spsrOf m := by
  cases m <;> simp [State.spsrOf, fiq, irq, svc, abt, und]

/-- An exception is taken in the same way from two states with the same registers and status (R503). -/
theorem Entered.of_same {e : Exc} {ret : Word} {s u t : State} (h : Entered e ret u t) (cpsr : u.cpsr = s.cpsr)
    (control : u.cp15.control = s.cp15.control) (regs : u.regs = s.regs) (spsr : ∀ m, u.spsrOf m = s.spsrOf m) :
    Entered e ret s t where
  link := h.link
  saved := by rw [h.saved, cpsr]
  mode := h.mode
  thumb := h.thumb
  irqMask := h.irqMask
  fiqMask := by rw [h.fiqMask, cpsr]
  rest := by rw [h.rest, cpsr]
  pc := by rw [h.pc, control]
  regs := fun k hk => by rw [h.regs k hk, regs]
  others := fun m hm => by rw [h.others m hm, spsr]
  pipe := h.pipe

/-- The state a Prefetch Abort of the bus is entered from: the FSR is written where the platform says so
(R137, D27). -/
theorem State.takePrefetchAbort_eq (i : AbortInfo) (s : State) (bus : i.dbg = false) :
    s.takePrefetchAbort i =
      State.enter .prefetchAbort (s.pc + 4)
        { s with cp15 := { s.cp15 with fsr := if s.platform.fsrOnPabt then i.domain ++ i.code else s.cp15.fsr } } := by
  unfold State.takePrefetchAbort
  rw [bus]
  cases s.platform.fsrOnPabt <;> rfl

/-- Settles O27. -/
theorem prefetchAbortEntry : Obligations.PrefetchAbortEntry := by
  intro s i mark rest schedule stuck ack off top quiet pipe bus
  have same := State.prefetch_undebugged off
  have runs : step s = .next (s.prefetch.takePrefetchAbort i) := by
    unfold step State.stepOnce
    rw [schedule]
    exact State.coreStep_runs stuck ack off top quiet pipe
  refine ⟨_, runs, ?_, ?_, ?_⟩
  · rw [State.takePrefetchAbort_eq i _ bus, show s.prefetch.pc = s.pc by rw [same]]
    exact (State.entered ..).of_same (by rw [same]) (by rw [same]) (by rw [same])
      (State.spsrOf_congr (by rw [same]) (by rw [same]) (by rw [same]) (by rw [same]) (by rw [same]))
  · rw [State.takePrefetchAbort_eq i _ bus, State.enter_cp15, s.fetches_prefetch.cp15, s.fetches_prefetch.platform]
  · rw [State.takePrefetchAbort_eq i _ bus, State.enter_memsys]

end Sys2Proof.Machine
end

section
/-! # The write buffer -/

namespace Sys2Proof.Machine

/-- A write that hits changes the cache alone (R143). -/
theorem MemSys.updateLine_eq (b : Bool) (n : Size) (mva v : Word) (ms : MemSys) :
    ∃ cache, ms.updateLine b n mva v = { ms with cache := cache } := by
  unfold MemSys.updateLine
  split
  · exact ⟨ms.cache, rfl⟩
  · exact ⟨_, rfl⟩

/-- The cache and the mark of the Thumb prefetch buffer are all a write changes before it is buffered or goes to
the bus (R100 step 5). -/
theorem MemSys.writeRoute_eq (big : Bool) (cp : Cp15) (k : Access) (n : Size) (mva v : Word) (r : Route)
    (ms : MemSys) :
    ∃ cache, ms.writeRoute big cp k n mva v r =
      if cp.bufferOn && r.bufferable && k != .swapWrite then
        (.ok (), MemSys.enqueue big ⟨r.pa, n, v, r.prot k, .single⟩ { ms with cache := cache, thumbStale := true })
      else MemSys.externalWrite big k n r mva v { ms with cache := cache, thumbStale := true } := by
  unfold MemSys.writeRoute
  obtain ⟨cache, line⟩ := ms.updateLine_eq cp.bigEndian n mva v
  cases cp.cacheOn with
  | true => exact ⟨cache, by rw [line]; rfl⟩
  | false => exact ⟨ms.cache, rfl⟩

/-- A drained buffer is empty, and nothing but the bus was at work (R153). -/
theorem MemSys.onBus_drain (big : Bool) (ms : MemSys) :
    MemSys.OnBus { ms with wbuf := [] } (ms.drain big) :=
  MemSys.onBus_performAll big ms.wbuf { ms with wbuf := [] }

theorem MemSys.onBus_externalRead (big : Bool) (k : Access) (n : Size) (r : Route) (mva : Word) (ms : MemSys) :
    MemSys.OnBus { ms with wbuf := [] } (ms.externalRead big k n r mva).2 := by
  have t := (ms.onBus_drain big).trans (MemSys.onBus_transfer
    ⟨r.pa, n, none, some (r.prot k), k == .swapRead, k.burst, k.trans⟩ (ms.drain big))
  unfold MemSys.externalRead
  generalize (ms.drain big).transfer _ = x at t ⊢
  obtain ⟨a, m⟩ := x
  simp only
  split
  · exact t.trans (m.onBus_externalAbort r.entry mva)
  · exact t

theorem MemSys.onBus_externalWrite (big : Bool) (k : Access) (n : Size) (r : Route) (mva v : Word) (ms : MemSys) :
    MemSys.OnBus { ms with wbuf := [] } (ms.externalWrite big k n r mva v).2 := by
  have t := (ms.onBus_drain big).trans (MemSys.onBus_transfer
    ⟨r.pa, n, some (replicated n v), some (r.prot k), k == .swapWrite, k.burst, k.trans⟩ (ms.drain big))
  unfold MemSys.externalWrite
  generalize (ms.drain big).transfer _ = x at t ⊢
  obtain ⟨a, m⟩ := x
  simp only
  split
  · exact t.trans (m.onBus_externalAbort r.entry mva)
  · exact t.trans (MemSys.onBus_taken big n r.pa v m)

/-- A grant of a calm bus performs the oldest write (R152). -/
theorem MemSys.Calm.drainOne {big : Bool} {ms : MemSys} (h : ms.Calm) {x : BufferedWrite}
    {older : List BufferedWrite} (e : ms.wbuf = x :: older) :
    ∃ n bus, ms.drainOne big =
      { ms with
        wbuf := older, mem := ms.mem.store big x.size x.pa x.data, answers := ms.answers.drop n, bus := bus } := by
  unfold MemSys.drainOne
  rw [e]
  exact MemSys.perform_okay (ms := { ms with wbuf := older }) ⟨h.okay, h.alone, h.plain⟩

/-- A grant of a calm bus changes no byte of memory as it stands. -/
theorem MemSys.Calm.settled_drainOne {big : Bool} {ms : MemSys} (h : ms.Calm) {x : BufferedWrite}
    {older : List BufferedWrite} (e : ms.wbuf = x :: older) :
    ((ms.drainOne big).drain big).mem = (ms.drain big).mem := by
  obtain ⟨n, bus, granted⟩ := h.drainOne (big := big) e
  have calm := h.drop n (ms.mem.store big x.size x.pa x.data) older ms.cache ms.tlb ms.tlbVictim bus ms.draws
  rw [granted, MemSys.drain_mem calm, MemSys.drain_mem h, e]
  rfl

/-- Settles O54. -/
theorem writeBufferOrder : Obligations.WriteBufferOrder := by
  intro s k n mva v r rest q ms big e performed
  refine ⟨fun on bufferable room => ?_, fun on bufferable full x older oldest => ?_, fun grant x older oldest => ?_,
    fun unbuffered => ?_, fun uncached => ?_⟩
  · obtain ⟨cache, route⟩ := ms.writeRoute_eq big s.cp15 .write n mva v r
    rw [route, on, bufferable]
    refine ⟨_, rfl, ?_⟩
    unfold MemSys.enqueue
    rw [if_pos (by exact room)]
    exact ⟨rfl, rfl⟩
  · obtain ⟨cache, route⟩ := ms.writeRoute_eq big s.cp15 .write n mva v r
    obtain ⟨j, bus, granted⟩ :=
      MemSys.Calm.drainOne (big := big) (ms := { ms with cache := cache, thumbStale := true })
        ⟨q.calm.okay, q.calm.alone, q.calm.plain⟩ oldest
    rw [route, on, bufferable]
    refine ⟨_, rfl, ?_⟩
    unfold MemSys.enqueue
    rw [if_neg (by show ¬ ms.wbuf.length < 8; omega), granted]
    exact ⟨fun a => Memory.get_store q.canonical, rfl⟩
  · have granted : step s = .next { s with schedule := rest, memsys := ms.drainOne big } := by
      unfold step State.stepOnce
      rw [grant]
      rfl
    refine ⟨_, granted, (ms.drainOne_wbuf big).trans (by rw [oldest]; rfl), ?_, fun a => ?_⟩
    · obtain ⟨j, bus, one⟩ := q.calm.drainOne (big := big) oldest
      intro a
      show (ms.drainOne big).mem.get a = _
      rw [one]
      exact Memory.get_store q.canonical
    · exact congrArg (fun m => Memory.get m a) (q.calm.settled_drainOne (big := big) oldest)
  · obtain ⟨cache, route⟩ := ms.writeRoute_eq big s.cp15 k n mva v r
    rw [route, if_neg (by rcases unbuffered with h | h | h <;> simp [h])]
    exact (MemSys.onBus_externalWrite ..).wbuf
  · unfold MemSys.readRoute
    rw [if_neg (by rcases uncached with h | h | h <;> simp [h])]
    exact (MemSys.onBus_externalRead ..).wbuf

end Sys2Proof.Machine
end

section
/-! # The table walk -/

namespace Sys2Proof.Machine

/-! ## The bits of a mapping -/

theorem TlbSize.offset_getLsbD (n : TlbSize) (a : Word) (i : Nat) :
    (n.offset a).getLsbD i = (decide (i < n.bits) && a.getLsbD i) := by
  unfold TlbSize.offset
  rw [BitVec.getLsbD_and, BitVec.getLsbD_ofNat, Nat.testBit_two_pow_sub_one, Bool.and_comm]
  have := n.five_le_bits
  by_cases h : i < n.bits
  · simp [h, show i < 32 by omega]
  · simp [h]

theorem TlbSize.page_getLsbD (n : TlbSize) (a : Word) (i : Nat) :
    (n.page a).getLsbD i = (decide (n.bits ≤ i) && a.getLsbD i) := by
  unfold TlbSize.page
  rw [BitVec.getLsbD_and, BitVec.getLsbD_not, BitVec.getLsbD_ofNat, Nat.testBit_two_pow_sub_one]
  have := n.five_le_bits
  by_cases h : n.bits ≤ i
  · by_cases w : i < 32
    · simp [h, w, Nat.not_lt.2 h]
    · simp [BitVec.getLsbD_of_ge a i (by omega)]
  · simp [h, show i < n.bits by omega, show i < 32 by omega]

/-- The page of one word with the offset of another: the high part of the one over the low part of the other. -/
theorem TlbSize.page_or_offset_getLsbD (n : TlbSize) (a b : Word) (i : Nat) :
    (n.page a ||| n.offset b).getLsbD i = if i < n.bits then b.getLsbD i else a.getLsbD i := by
  rw [BitVec.getLsbD_or, TlbSize.page_getLsbD, TlbSize.offset_getLsbD]
  by_cases h : i < n.bits
  · simp [h]
  · simp [h, Nat.not_lt.1 h]

/-- The same, as the concatenation of the two fields. -/
theorem append_eq_page_or_offset (n : TlbSize) (a b : Word) {top low : Nat} (bits : low = n.bits)
    (all : top + low = 32) :
    n.page a ||| n.offset b = (a.extractLsb' low top ++ b.extractLsb' 0 low).cast all := by
  subst bits
  apply BitVec.eq_of_getLsbD_eq
  intro i hi
  rw [TlbSize.page_or_offset_getLsbD, BitVec.getLsbD_cast, BitVec.getLsbD_append, BitVec.getLsbD_extractLsb',
    BitVec.getLsbD_extractLsb']
  by_cases h : i < n.bits
  · simp [h]
  · simp [h, show i - n.bits < top by omega, show n.bits + (i - n.bits) = i by omega]

/-- A mapping of a size no larger than the page it is cut from gives the page's addresses (R125). -/
theorem TlbSize.page_of_page (n page : TlbSize) (a b : Word) (le : n.bits ≤ page.bits) :
    n.page (n.page (page.page a ||| page.offset b)) ||| n.offset b = page.page a ||| page.offset b := by
  apply BitVec.eq_of_getLsbD_eq
  intro i hi
  rw [TlbSize.page_or_offset_getLsbD, TlbSize.page_getLsbD, TlbSize.page_or_offset_getLsbD]
  by_cases h : i < n.bits
  · simp [h, show i < page.bits by omega]
  · simp [h, Nat.not_lt.1 h]

theorem TlbSize.page_page (n : TlbSize) (a : Word) : n.page (n.page a) = n.page a := by
  apply BitVec.eq_of_getLsbD_eq
  intro i hi
  simp only [TlbSize.page_getLsbD]
  cases decide (n.bits ≤ i) <;> rfl

/-! ## The entries a walk makes -/

theorem sectionEntry_physical (l1 mva : Word) :
    (sectionEntry l1 mva).physical mva = l1.extractLsb' 20 12 ++ mva.extractLsb' 0 20 := by
  unfold TlbEntry.physical sectionEntry
  simp only [TlbSize.page_page]
  exact append_eq_page_or_offset .mb1 l1 mva rfl rfl

theorem tinyEntry_physical (domain : BitVec 4) (l2 mva : Word) :
    (tinyEntry domain l2 mva).physical mva = l2.extractLsb' 10 22 ++ mva.extractLsb' 0 10 := by
  unfold TlbEntry.physical tinyEntry
  simp only [TlbSize.page_page]
  exact append_eq_page_or_offset .kb1 l2 mva rfl rfl

/-- Whether its subpages share their permissions or not, a page gives the same address (R121, R122). -/
theorem pageEntry_physical {page sub : TlbSize} (domain : BitVec 4) (l2 mva : Word) (le : sub.bits ≤ page.bits) :
    (pageEntry page sub domain l2 mva).physical mva = page.page l2 ||| page.offset mva := by
  unfold TlbEntry.physical pageEntry
  simp only
  split
  · exact TlbSize.page_of_page page page l2 mva le_rfl
  · exact TlbSize.page_of_page sub page l2 mva le

theorem pageEntry_size {page sub : TlbSize} (domain : BitVec 4) (l2 mva : Word) (p : page ≠ .mb1) (s : sub ≠ .mb1) :
    (pageEntry page sub domain l2 mva).size ≠ .mb1 := by
  unfold pageEntry
  simp only
  split
  · exact p
  · exact s

/-- The entry of a level two descriptor answers for the address it was made for. -/
theorem levelTwo_hits {fine : Bool} {domain : BitVec 4} {l2 mva : Word} {e : TlbEntry}
    (h : levelTwo fine domain l2 mva = .entry e) : e.hits mva = true := by
  have answers (n : TlbSize) : (n.page mva == n.page mva) = true := beq_self_eq_true _
  unfold levelTwo at h
  split at h
  · cases h
  · cases h; exact answers _
  · cases h; exact answers _
  · split at h
    · cases h; exact answers _
    · cases h

/-- The entry a walk finds answers for the address it was made for (R114). -/
theorem MemSys.walk_hits {big : Bool} {ttb : BitVec 18} {mva : Word} {ms : MemSys} {e : TlbEntry}
    (h : (ms.walk big ttb mva).1 = .entry e) : e.hits mva = true := by
  unfold MemSys.walk at h
  simp only at h
  split at h
  · cases h
  · exact levelTwo_hits h
  · cases h
    exact beq_self_eq_true (TlbSize.mb1.page mva)
  · exact levelTwo_hits h

/-! ## The fill -/

theorem find?_set_of_none {α : Type} {p : α → Bool} (l : List α) (i : Nat) (h : i < l.length) (x : α)
    (none : l.find? p = none) (hit : p x = true) : (l.set i x).find? p = some x := by
  induction l generalizing i with
  | nil => exact absurd h (Nat.not_lt_zero i)
  | cons y rest ih =>
    obtain ⟨miss, misses⟩ : p y = false ∧ rest.find? p = Option.none := by
      rw [List.find?_cons] at none
      split at none
      · cases none
      · exact ⟨by assumption, none⟩
    cases i with
    | zero => simp [hit]
    | succ i =>
      rw [List.set_cons_succ, List.find?_cons, miss]
      exact ih i (Nat.lt_of_succ_lt_succ h) misses

/-- Where none answered, the entry filled in answers (R114, R138). -/
theorem MemSys.tlbLookup_tlbFill {ms : MemSys} {e : TlbEntry} {mva : Word} (miss : ms.tlbLookup mva = none)
    (hit : e.hits mva = true) :
    (ms.tlbFill e).tlbLookup mva = some { e with preserve := ms.tlbPreserve } := by
  unfold MemSys.tlbLookup MemSys.tlbFill
  rw [Vector.toList_set]
  exact find?_set_of_none _ _ (by simpa using ms.tlbVictim.isLt) _ miss hit

/-! ## What a miss leads to -/

/-- A walk on a calm bus (R115 to R119): by the two low bits of the level one descriptor. -/
theorem MemSys.Calm.walk_found {ms : MemSys} (h : ms.Calm) (big : Bool) (ttb : BitVec 18) (mva : Word) {l1 : Word}
    (first : ms.mem.word big (l1Address ttb mva) = l1) :
    (l1.extractLsb' 0 2 = 0 → (ms.walk big ttb mva).1 = .sectionFault) ∧
    (l1.extractLsb' 0 2 = 1 → (ms.walk big ttb mva).1 =
      levelTwo false (l1.extractLsb' 5 4) (ms.mem.word big (coarseAddress l1 mva)) mva) ∧
    (l1.extractLsb' 0 2 = 2 → (ms.walk big ttb mva).1 = .entry (sectionEntry l1 mva)) ∧
    (l1.extractLsb' 0 2 = 3 → (ms.walk big ttb mva).1 =
      levelTwo true (l1.extractLsb' 5 4) (ms.mem.word big (fineAddress l1 mva)) mva) := by
  obtain ⟨n, bus, one⟩ := h.walkRead big (l1Address ttb mva)
  have two (pa : Word) :
      (MemSys.walkRead big pa { ms with answers := ms.answers.drop n, bus := bus }).1 = ms.mem.word big pa := by
    obtain ⟨m, bus', e⟩ := (h.drop n ms.mem ms.wbuf ms.cache ms.tlb ms.tlbVictim bus ms.draws).walkRead big pa
    rw [e]
  unfold MemSys.walk
  rw [one, first]
  refine ⟨fun k => ?_, fun k => ?_, fun k => ?_, fun k => ?_⟩
  · simp only [k]; rfl
  · rw [← two (coarseAddress l1 mva)]; simp only [k]; rfl
  · simp only [k]; rfl
  · rw [← two (fineAddress l1 mva)]; simp only [k]; rfl

/-- A walk that finds an entry fills it in (R114). -/
theorem MemSys.Calm.translate_entry {ms : MemSys} (h : ms.Calm) {big : Bool} {cp : Cp15} {mva : Word} {e : TlbEntry}
    (miss : ms.tlbLookup mva = none) (found : (ms.walk big cp.ttb mva).1 = .entry e) :
    ∃ ms', ms.translate big cp mva = (.ok e, ms') ∧ ms'.mem = ms.mem ∧
      ms'.tlbLookup mva = some { e with preserve := ms.tlbPreserve } := by
  obtain ⟨n, bus, walked⟩ := h.walk big cp.ttb mva
  have hit := MemSys.walk_hits found
  unfold MemSys.translate
  rw [miss, ← Prod.mk.eta (p := ms.walk big cp.ttb mva), found, walked]
  exact ⟨_, rfl, rfl, MemSys.tlbLookup_tlbFill (ms := { ms with answers := ms.answers.drop n, bus := bus }) miss hit⟩

/-- A walk that finds no entry leaves memory and the TLB as they are (R133, U23). -/
theorem MemSys.Calm.translate_none {ms : MemSys} (h : ms.Calm) {big : Bool} {cp : Cp15} {mva : Word}
    (miss : ms.tlbLookup mva = none) :
    ((ms.walk big cp.ttb mva).1 = .sectionFault → ∃ domain ms',
      ms.translate big cp mva = (.abort ⟨0b0101, domain, mva, false⟩, ms') ∧ ms'.mem = ms.mem ∧ ms'.tlb = ms.tlb) ∧
    (∀ domain, (ms.walk big cp.ttb mva).1 = .pageFault domain → ∃ ms',
      ms.translate big cp mva = (.abort ⟨0b0111, domain, mva, false⟩, ms') ∧ ms'.mem = ms.mem ∧ ms'.tlb = ms.tlb) ∧
    ((ms.walk big cp.ttb mva).1 = .tinyInCoarse → ∃ ms',
      ms.translate big cp mva = (.stop .tinyPageInCoarse, ms') ∧ ms'.mem = ms.mem ∧ ms'.tlb = ms.tlb) := by
  obtain ⟨n, bus, walked⟩ := h.walk big cp.ttb mva
  unfold MemSys.translate
  rw [miss, ← Prod.mk.eta (p := ms.walk big cp.ttb mva), walked]
  refine ⟨fun found => ?_, fun domain found => ?_, fun found => ?_⟩ <;> rw [found]
  · exact ⟨_, _, rfl, rfl, rfl⟩
  · exact ⟨_, rfl, rfl, rfl⟩
  · exact ⟨_, rfl, rfl, rfl⟩

/-- A level two descriptor by its two low bits (R120). -/
theorem levelTwo_cases (fine : Bool) (domain : BitVec 4) (l2 mva : Word) :
    (l2.extractLsb' 0 2 = 0 → levelTwo fine domain l2 mva = .pageFault domain) ∧
    (l2.extractLsb' 0 2 = 1 → levelTwo fine domain l2 mva = .entry (pageEntry .kb64 .kb16 domain l2 mva)) ∧
    (l2.extractLsb' 0 2 = 2 → levelTwo fine domain l2 mva = .entry (pageEntry .kb4 .kb1 domain l2 mva)) ∧
    (l2.extractLsb' 0 2 = 3 → levelTwo fine domain l2 mva =
      if fine then .entry (tinyEntry domain l2 mva) else .tinyInCoarse) := by
  unfold levelTwo
  refine ⟨fun k => ?_, fun k => ?_, fun k => ?_, fun k => ?_⟩ <;> simp only [k] <;> rfl

/-- The subpage an address lies in, as a field of the address (R121, R122). -/
theorem subpageAp_eq (l2 mva : Word) (bits : Nat) :
    subpageAp l2 (mva.toNat / 2 ^ bits % 4) = l2.extractLsb' (4 + 2 * (mva.extractLsb' bits 2).toNat) 2 := by
  rw [BitVec.extractLsb'_toNat, Nat.shiftRight_eq_div_pow]
  rfl

/-- Settles O51. -/
theorem tableWalk : Obligations.TableWalk := by
  intro big cp ms mva calm miss l1 fine l2 finds fails
  obtain ⟨none, isCoarse, isSection, isFine⟩ := calm.walk_found big cp.ttb mva (l1 := l1) rfl
  obtain ⟨sectionFault, pageFault, tinyInCoarse⟩ := calm.translate_none (big := big) (cp := cp) miss
  have entry {e : TlbEntry} {pa : Word} {ap : BitVec 2} {l : Word} (found : (ms.walk big cp.ttb mva).1 = .entry e)
      (physical : e.physical mva = pa) (domain : e.domain = l1.extractLsb' 5 4) (permission : e.ap = ap)
      (cachable : e.cachable = l.getLsbD 3) (bufferable : e.bufferable = l.getLsbD 2)
      (size : e.size = .mb1 ↔ l1.extractLsb' 0 2 = 2) : finds pa ap l := by
    obtain ⟨ms', translated, mem, answers⟩ := calm.translate_entry miss found
    exact ⟨e, ms', translated, physical, domain, permission, cachable, bufferable, size, mem, _, answers, rfl⟩
  refine ⟨fun k => sectionFault (none k), fun k => ?_, fun k => ?_⟩
  · exact entry (isSection k) (sectionEntry_physical l1 mva) rfl rfl rfl rfl (iff_of_true rfl k)
  · have walked : (ms.walk big cp.ttb mva).1 = levelTwo (decide fine) (l1.extractLsb' 5 4) l2 mva := by
      by_cases f : fine
      · rw [decide_eq_true f, isFine f, show l2 = _ from congrArg (ms.mem.word big) (if_pos f)]
        rfl
      · rw [decide_eq_false f, isCoarse (k.resolve_right f),
          show l2 = _ from congrArg (ms.mem.word big) (if_neg f)]
        rfl
    have page : l1.extractLsb' 0 2 ≠ 2 := by rcases k with k | k <;> rw [k] <;> decide
    obtain ⟨invalid, large, small, tiny⟩ := levelTwo_cases (decide fine) (l1.extractLsb' 5 4) l2 mva
    refine ⟨fun j => pageFault _ (walked.trans (invalid j)), fun j => ?_, fun j => ?_, fun j => ?_⟩
    · exact entry (walked.trans (large j))
        ((pageEntry_physical _ l2 mva (by decide)).trans (append_eq_page_or_offset .kb64 l2 mva rfl rfl)) rfl
        (subpageAp_eq l2 mva 14) rfl rfl (iff_of_false (pageEntry_size _ l2 mva (by decide) (by decide)) page)
    · exact entry (walked.trans (small j))
        ((pageEntry_physical _ l2 mva (by decide)).trans (append_eq_page_or_offset .kb4 l2 mva rfl rfl)) rfl
        (subpageAp_eq l2 mva 10) rfl rfl (iff_of_false (pageEntry_size _ l2 mva (by decide) (by decide)) page)
    · have found := walked.trans (tiny j)
      split
      · rename_i f
        rw [decide_eq_true f] at found
        exact entry found (tinyEntry_physical _ l2 mva) rfl rfl rfl rfl
          (iff_of_false (show TlbSize.kb1 ≠ .mb1 by decide) page)
      · rename_i f
        rw [decide_eq_false f] at found
        exact tinyInCoarse found

end Sys2Proof.Machine
end

section
/-! # Data Aborts: what the memory system answers and keeps -/

namespace Sys2Proof.Machine

/-! ## The fault an abort reports -/

theorem MemSys.translate_abort_dbg {big : Bool} {cp : Cp15} {mva : Word} {ms : MemSys} {i : AbortInfo}
    (h : (ms.translate big cp mva).1 = .abort i) : i.dbg = false := by
  unfold MemSys.translate at h
  split at h
  · cases h
  · split at h <;> cases h <;> rfl

/-- An abort of steps 1 to 3 is no watchpoint's (R100, R552). -/
theorem MemSys.resolve_abort_dbg {big : Bool} {cp : Cp15} {k : Access} {n : Size} {priv : Bool} {va : Word}
    {ms : MemSys} {i : AbortInfo} (h : (ms.resolve big cp k n priv va).1 = .abort i) : i.dbg = false := by
  unfold MemSys.resolve MemSys.route at h
  split at h
  · cases h; rfl
  · split at h
    · rcases translated : ms.translate big cp (accessMva cp n va) with ⟨e | fault | r, m⟩ <;> rw [translated] at h
      · simp only at h
        split at h
        · cases h
        · cases h; rfl
      · cases h
        exact MemSys.translate_abort_dbg (congrArg Prod.fst translated)
      · cases h
    · cases h

/-- What an external abort reports (R131, R136). -/
structure AbortInfo.External (entry : Option TlbEntry) (mva : Word) (i : AbortInfo) : Prop where
  addr : i.addr = mva
  dbg : i.dbg = false
  mapped : ∀ e, entry = some e → i.domain = e.domain ∧ i.code = if e.size = .mb1 then 0b1000 else 0b1010
  flat : entry = none → i.code = 0b1000 ∨ i.code = 0b1010

theorem MemSys.externalAbort_external (entry : Option TlbEntry) (mva : Word) (ms : MemSys) :
    (ms.externalAbort entry mva).1.External entry mva := by
  cases entry with
  | some e =>
    refine ⟨rfl, rfl, fun x hx => ?_, nofun⟩
    cases hx
    exact ⟨rfl, by simp only [MemSys.externalAbort, TlbEntry.isSection_iff]⟩
  | none =>
    refine ⟨rfl, rfl, nofun, fun _ => ?_⟩
    simp only [MemSys.externalAbort]
    split
    · exact .inr rfl
    · exact .inl rfl

theorem MemSys.externalAbort_mem (entry : Option TlbEntry) (mva : Word) (ms : MemSys) :
    (ms.externalAbort entry mva).2.mem = ms.mem := by
  cases entry <;> rfl

theorem MemSys.externalRead_abort_dbg {big : Bool} {k : Access} {n : Size} {r : Route} {mva : Word} {ms : MemSys}
    {i : AbortInfo} (h : (ms.externalRead big k n r mva).1 = .abort i) : i.dbg = false := by
  unfold MemSys.externalRead at h
  simp only at h
  split at h
  · cases h
    exact (MemSys.externalAbort_external ..).dbg
  · cases h

theorem MemSys.externalWrite_abort_dbg {big : Bool} {k : Access} {n : Size} {r : Route} {mva v : Word} {ms : MemSys}
    {i : AbortInfo} (h : (ms.externalWrite big k n r mva v).1 = .abort i) : i.dbg = false := by
  unfold MemSys.externalWrite at h
  simp only at h
  split at h
  · cases h
    exact (MemSys.externalAbort_external ..).dbg
  · cases h

theorem MemSys.read_abort_dbg {big : Bool} {cp : Cp15} {k : Access} {n : Size} {priv : Bool} {va : Word}
    {ms : MemSys} {i : AbortInfo} (h : (ms.read big cp k n priv va).1 = .abort i) : i.dbg = false := by
  unfold MemSys.read at h
  rcases resolved : ms.resolve big cp k n priv va with ⟨r | fault | e, m⟩ <;> rw [resolved] at h
  · simp only [MemSys.readRoute] at h
    split at h
    · split at h <;> cases h
    · exact MemSys.externalRead_abort_dbg h
  · cases h
    exact MemSys.resolve_abort_dbg (congrArg Prod.fst resolved)
  · cases h

theorem MemSys.write_abort_dbg {big : Bool} {cp : Cp15} {k : Access} {n : Size} {priv : Bool} {va v : Word}
    {ms : MemSys} {i : AbortInfo} (h : (ms.write big cp k n priv va v).1 = .abort i) : i.dbg = false := by
  unfold MemSys.write at h
  rcases resolved : ms.resolve big cp k n priv va with ⟨r | fault | e, m⟩ <;> rw [resolved] at h
  · obtain ⟨cache, route⟩ := m.writeRoute_eq big cp k n (accessMva cp n va) v r
    simp only [route] at h
    split at h
    · cases h
    · exact MemSys.externalWrite_abort_dbg h
  · cases h
    exact MemSys.resolve_abort_dbg (congrArg Prod.fst resolved)
  · cases h

/-- A read that steps 1 to 3 abort makes no more of the access (R100). -/
theorem MemSys.read_of_abort {big : Bool} {cp : Cp15} {k : Access} {n : Size} {priv : Bool} {va : Word}
    {ms : MemSys} {i : AbortInfo} (h : (ms.resolve big cp k n priv va).1 = .abort i) :
    ms.read big cp k n priv va = (.abort i, (ms.resolve big cp k n priv va).2) := by
  unfold MemSys.read
  rw [← Prod.mk.eta (p := ms.resolve big cp k n priv va), h]

theorem MemSys.write_of_abort {big : Bool} {cp : Cp15} {k : Access} {n : Size} {priv : Bool} {va v : Word}
    {ms : MemSys} {i : AbortInfo} (h : (ms.resolve big cp k n priv va).1 = .abort i) :
    ms.write big cp k n priv va v = (.abort i, (ms.resolve big cp k n priv va).2) := by
  unfold MemSys.write
  rw [← Prod.mk.eta (p := ms.resolve big cp k n priv va), h]

/-! ## A transfer that draws ERROR -/

/-- A transfer during which no other master writes changes the two lists of the bus alone (R162). -/
theorem MemSys.transfer_alone (t : BusTransfer) {ms : MemSys} (alone : ∀ a ∈ answersTaken ms.answers, a.writes = []) :
    ∃ n bus, (ms.transfer t).2 = { ms with answers := ms.answers.drop n, bus := bus } := by
  obtain ⟨-, bus, e⟩ := MemSys.drive_alone t t.write.isSome (ms := ms) alone
  exact ⟨_, bus, e⟩

theorem MemSys.transfer_error (t : BusTransfer) {ms : MemSys} (alone : ∀ a ∈ answersTaken ms.answers, a.writes = [])
    (error : ms.slaveAt t.pa = some .absent ∨ ∃ a ∈ (answersTaken ms.answers).getLast?, a.error = true) :
    (ms.transfer t).1.error = true := by
  obtain ⟨answer, bus, e⟩ := MemSys.drive_alone t t.write.isSome (ms := ms) alone
  unfold MemSys.transfer
  rw [← Prod.mk.eta (p := ms.drive t ms.answers t.write.isSome), e]
  simp only
  split
  · rfl
  · rename_i present
    obtain ⟨a, last, h⟩ := error.resolve_left present
    rw [answer, Option.mem_def.1 last]
    exact h

/-- An external read that draws ERROR (R136): memory has the buffered writes performed. -/
theorem MemSys.externalRead_error {big : Bool} (k : Access) (n : Size) {r : Route} (mva : Word) {ms : MemSys}
    (alone : ∀ a ∈ answersTaken (ms.drain big).answers, a.writes = [])
    (error : (ms.drain big).slaveAt r.pa = some .absent ∨
      ∃ a ∈ (answersTaken (ms.drain big).answers).getLast?, a.error = true) :
    ∃ i, (ms.externalRead big k n r mva).1 = .abort i ∧ i.External r.entry mva ∧
      (ms.externalRead big k n r mva).2.mem = (ms.drain big).mem := by
  unfold MemSys.externalRead
  generalize transfer : BusTransfer.mk r.pa n none _ _ _ _ = t
  have pa : t.pa = r.pa := by rw [← transfer]
  obtain ⟨j, bus, e⟩ := MemSys.transfer_alone t alone
  simp only [MemSys.transfer_error t alone (by rw [pa]; exact error), if_true]
  exact ⟨_, rfl, MemSys.externalAbort_external .., by rw [MemSys.externalAbort_mem, e]⟩

theorem MemSys.externalWrite_error {big : Bool} (k : Access) (n : Size) {r : Route} (mva v : Word) {ms : MemSys}
    (alone : ∀ a ∈ answersTaken (ms.drain big).answers, a.writes = [])
    (error : (ms.drain big).slaveAt r.pa = some .absent ∨
      ∃ a ∈ (answersTaken (ms.drain big).answers).getLast?, a.error = true) :
    ∃ i, (ms.externalWrite big k n r mva v).1 = .abort i ∧ i.External r.entry mva ∧
      (ms.externalWrite big k n r mva v).2.mem = (ms.drain big).mem := by
  unfold MemSys.externalWrite
  generalize transfer : BusTransfer.mk r.pa n (some (replicated n v)) _ _ _ _ = t
  have pa : t.pa = r.pa := by rw [← transfer]
  obtain ⟨j, bus, e⟩ := MemSys.transfer_alone t alone
  simp only [MemSys.transfer_error t alone (by rw [pa]; exact error), if_true]
  exact ⟨_, rfl, MemSys.externalAbort_external .., by rw [MemSys.externalAbort_mem, e]⟩

/-! ## The bus does not look at the cache -/

/-- Another cache, and another mark of the Thumb prefetch buffer: what a write changes before it is on the bus. -/
def MemSys.withLines (cache : Vector (Vector CacheLine 64) 4) (stale : Bool) (ms : MemSys) : MemSys :=
  { ms with cache := cache, thumbStale := stale }

theorem MemSys.drive_withLines (cache : Vector (Vector CacheLine 64) 4) (stale : Bool) (t : BusTransfer)
    (l : List BusAnswer) (b : Bool) (ms : MemSys) :
    (ms.withLines cache stale).drive t l b = ((ms.drive t l b).1, (ms.drive t l b).2.withLines cache stale) := by
  induction l generalizing b ms with
  | nil => rfl
  | cons a rest ih =>
    unfold MemSys.drive
    simp only
    split
    · exact ih true { ms with
        answers := rest
        bus := ms.bus ++ [t.drivenAfter ms.bus]
        mem := if t.lock && b then ms.mem else ms.mem.setBytes a.writes }
    · rfl

theorem MemSys.transfer_withLines (cache : Vector (Vector CacheLine 64) 4) (stale : Bool) (t : BusTransfer)
    (ms : MemSys) :
    (ms.withLines cache stale).transfer t = ((ms.transfer t).1, (ms.transfer t).2.withLines cache stale) := by
  unfold MemSys.transfer
  rw [show (ms.withLines cache stale).answers = ms.answers from rfl, MemSys.drive_withLines]
  rfl

theorem MemSys.perform_withLines (cache : Vector (Vector CacheLine 64) 4) (stale : Bool) (big : Bool)
    (e : BufferedWrite) (ms : MemSys) :
    (ms.withLines cache stale).perform big e = (ms.perform big e).withLines cache stale := by
  have taken (m : MemSys) : (m.withLines cache stale).taken big e.size e.pa e.data =
      (m.taken big e.size e.pa e.data).withLines cache stale := by
    unfold MemSys.taken
    rw [show (m.withLines cache stale).slaveAt e.pa = m.slaveAt e.pa from rfl]
    split <;> rfl
  unfold MemSys.perform
  rw [MemSys.transfer_withLines]
  generalize ms.transfer _ = x
  obtain ⟨a, m⟩ := x
  cases h : a.error with
  | false =>
    simp only [h, Bool.false_eq_true, if_false]
    exact taken m
  | true =>
    simp only [h, if_true]
    show (if (Config.busWord m.draws).getLsbD 0 then
        MemSys.taken big e.size e.pa e.data (MemSys.withLines cache stale { m with draws := m.draws + 1 })
      else MemSys.withLines cache stale { m with draws := m.draws + 1 }) = _
    rw [taken]
    exact (apply_ite (MemSys.withLines cache stale) _ _ _).symm

theorem MemSys.drain_withLines (cache : Vector (Vector CacheLine 64) 4) (stale : Bool) (big : Bool) (ms : MemSys) :
    (ms.withLines cache stale).drain big = (ms.drain big).withLines cache stale := by
  have all (l : List BufferedWrite) (m : MemSys) :
      MemSys.performAll big l (m.withLines cache stale) = (MemSys.performAll big l m).withLines cache stale := by
    induction l generalizing m with
    | nil => rfl
    | cons e rest ih =>
      unfold MemSys.performAll
      rw [MemSys.perform_withLines]
      exact ih _
  exact all ms.wbuf { ms with wbuf := [] }

/-- An unbuffered write is an external one, with a cache line updated before it (R100 step 5, R153). -/
theorem MemSys.writeRoute_unbuffered (big : Bool) {cp : Cp15} {k : Access} (n : Size) (mva v : Word) {r : Route}
    (ms : MemSys) (h : (cp.bufferOn && r.bufferable && k != .swapWrite) = false) :
    ∃ cache, ms.writeRoute big cp k n mva v r = (ms.withLines cache true).externalWrite big k n r mva v := by
  obtain ⟨cache, route⟩ := ms.writeRoute_eq big cp k n mva v r
  rw [h] at route
  exact ⟨cache, route⟩

/-! ## A read and a write that draw ERROR -/

theorem MemSys.read_error {big : Bool} {cp : Cp15} {k : Access} {n : Size} {priv : Bool} {va : Word} {ms m : MemSys}
    {r : Route} (resolved : ms.resolve big cp k n priv va = (.ok r, m))
    (external : (cp.cacheOn && r.cachable && k != .swapRead) = false)
    (error : (m.drain big).slaveAt r.pa = some .absent ∨
      ∃ a ∈ (answersTaken (m.drain big).answers).getLast?, a.error = true)
    (alone : ∀ a ∈ answersTaken (m.drain big).answers, a.writes = []) :
    ∃ i, (ms.read big cp k n priv va).1 = .abort i ∧ i.External r.entry (accessMva cp n va) ∧
      (ms.read big cp k n priv va).2.mem = (m.drain big).mem ∧ (ms.read big cp k n priv va).2.wbuf = [] := by
  obtain ⟨i, aborted, info, mem⟩ := MemSys.externalRead_error k n (accessMva cp n va) alone error
  have route : ms.read big cp k n priv va = m.externalRead big k n r (accessMva cp n va) := by
    unfold MemSys.read MemSys.readRoute
    rw [resolved]
    simp [external]
  rw [route]
  exact ⟨i, aborted, info, mem, (MemSys.onBus_externalRead ..).wbuf⟩

theorem MemSys.write_error {big : Bool} {cp : Cp15} {k : Access} {n : Size} {priv : Bool} {va : Word} (v : Word)
    {ms m : MemSys} {r : Route} (resolved : ms.resolve big cp k n priv va = (.ok r, m))
    (unbuffered : (cp.bufferOn && r.bufferable && k != .swapWrite) = false)
    (error : (m.drain big).slaveAt r.pa = some .absent ∨
      ∃ a ∈ (answersTaken (m.drain big).answers).getLast?, a.error = true)
    (alone : ∀ a ∈ answersTaken (m.drain big).answers, a.writes = []) :
    ∃ i, (ms.write big cp k n priv va v).1 = .abort i ∧ i.External r.entry (accessMva cp n va) ∧
      (ms.write big cp k n priv va v).2.mem = (m.drain big).mem ∧ (ms.write big cp k n priv va v).2.wbuf = [] := by
  obtain ⟨cache, route⟩ := m.writeRoute_unbuffered big n (accessMva cp n va) v unbuffered
  have drained := m.drain_withLines cache true big
  obtain ⟨i, aborted, info, mem⟩ := MemSys.externalWrite_error (ms := m.withLines cache true) k n
    (accessMva cp n va) v (by rw [drained]; exact alone) (by rw [drained]; exact error)
  have written : ms.write big cp k n priv va v =
      (m.withLines cache true).externalWrite big k n r (accessMva cp n va) v := by
    unfold MemSys.write
    rw [resolved]
    exact route
  rw [written]
  exact ⟨i, aborted, info, mem.trans (by rw [drained]; rfl), (MemSys.onBus_externalWrite ..).wbuf⟩

end Sys2Proof.Machine
end

section
/-! # Data Aborts: how an instruction takes one -/

namespace Sys2Proof.Machine

/-! ## What an access or a coprocessor's call leaves alone -/

/-- The same but for the memory system, the debug logic, the counter of free values and what was sent to
coprocessors. -/
def State.SameRegisters (s u : State) : Prop :=
  ∃ ms d n calls, u = { s with memsys := ms, dbg := d, draws := n, calls := calls }

theorem State.SameRegisters.trans {s t u : State} (x : s.SameRegisters t) (y : t.SameRegisters u) :
    s.SameRegisters u := by
  obtain ⟨_, _, _, _, rfl⟩ := x
  obtain ⟨ms, d, n, calls, rfl⟩ := y
  exact ⟨ms, d, n, calls, rfl⟩

theorem State.Accessed.sameRegisters {s u : State} (h : s.Accessed u) : s.SameRegisters u :=
  ⟨u.memsys, u.dbg, u.draws, s.calls, h.same⟩

theorem State.sameRegisters_call (x : CoprocCall) (s : State) : s.SameRegisters (s.call x) :=
  ⟨s.memsys, s.dbg, s.draws, s.calls ++ [x], rfl⟩

theorem State.SameRegisters.setReg {s u : State} (h : s.SameRegisters u) (i : Reg) (v : Word) :
    (s.setReg i v).SameRegisters (u.setReg i v) := by
  obtain ⟨ms, d, n, calls, rfl⟩ := h
  refine ⟨ms, d, n, calls, ?_⟩
  unfold State.setReg State.setBankReg
  split <;> rfl

/-! ## Taking a Data Abort -/

@[simp] theorem State.takeDataAbort_memsys (i : AbortInfo) (s : State) :
    (s.takeDataAbort i).memsys = s.memsys := by
  unfold State.takeDataAbort State.rememberAbort
  rw [State.enter_memsys]
  split <;> split <;> rfl

@[simp] theorem State.takeDataAbort_calls (i : AbortInfo) (s : State) : (s.takeDataAbort i).calls = s.calls := by
  unfold State.takeDataAbort State.rememberAbort
  rw [State.enter_calls]
  split <;> split <;> rfl

/-- What a Data Abort of the memory system leaves, with this memory system, when the instruction at `s` has made `x`
of the registers, which differs from `s` in a base written back at most (R137, R317, R503, R513). -/
structure State.DataAborted (s x : State) (i : AbortInfo) (ms : MemSys) (t : State) : Prop where
  entered : Entered .dataAbort (s.pc + 8) x t
  cp15 : t.cp15 = { s.cp15 with fsr := i.domain ++ i.code, far := i.addr }
  cp14 : t.cp14 = s.cp14
  platform : t.platform = s.platform
  memsys : t.memsys = ms

/-- A Data Abort taken after accesses is taken as from the state before them (R513). -/
theorem State.SameRegisters.dataAborted {s u : State} (h : s.SameRegisters u) {i : AbortInfo} (bus : i.dbg = false)
    {memsys : MemSys} (left : u.memsys = memsys) : s.DataAborted s i memsys (u.takeDataAbort i) := by
  subst left
  obtain ⟨ms, d, n, calls, rfl⟩ := h
  have taken (v : State) : ∃ d', v.takeDataAbort i =
      State.enter .dataAbort (v.pc + 8) { v.recordAbort i with dbg := d' } := by
    unfold State.takeDataAbort State.rememberAbort
    rw [bus]
    simp only [Bool.false_eq_true, if_false]
    split
    · exact ⟨_, rfl⟩
    · exact ⟨v.dbg, rfl⟩
  obtain ⟨d', e⟩ := taken { s with memsys := ms, dbg := d, draws := n, calls := calls }
  refine ⟨?_, ?_, ?_, ?_, State.takeDataAbort_memsys ..⟩
  · rw [e]
    exact (State.entered ..).of_same rfl rfl rfl (State.spsrOf_congr rfl rfl rfl rfl rfl)
  · rw [e, State.enter_cp15]; rfl
  · rw [e, State.enter_cp14]; rfl
  · rw [e, State.enter_platform]; rfl

/-! ## Accesses of a core that no debugger watches -/

/-- A read of the core is the memory system's (R100). -/
theorem State.load_undebugged {s : State} (off : s.pins.dbgen = false) (ack : s.dbg.ack = false) (k : Access)
    (n : Size) (priv : Bool) (va : Word) :
    (s.load k n priv va).2 = { s with memsys := (s.memsys.read s.platform.bigEndian s.cp15 k n priv va).2 } ∧
      (∀ i, (s.load k n priv va).1 = .abort i ↔
        (s.memsys.read s.platform.bigEndian s.cp15 k n priv va).1 = .abort i) ∧
      ((∃ w, (s.load k n priv va).1 = .ok w) ↔
        ∃ w, (s.memsys.read s.platform.bigEndian s.cp15 k n priv va).1 = .ok w) := by
  unfold State.load
  rw [State.debugSpeed_quiet ack]
  simp only [Bool.false_eq_true, if_false]
  generalize s.memsys.read s.platform.bigEndian s.cp15 k n priv va = x
  obtain ⟨w | i | r, ms⟩ := x
  · simp only
    rw [State.watch_quiet (by exact off)]
    exact ⟨rfl, fun i => ⟨nofun, nofun⟩, ⟨fun _ => ⟨w, rfl⟩, fun _ => ⟨_, rfl⟩⟩⟩
  · simp only
    rw [State.watch_quiet (by exact off)]
    exact ⟨rfl, fun _ => trivial, trivial⟩
  · exact ⟨rfl, fun _ => ⟨nofun, nofun⟩, ⟨nofun, nofun⟩⟩

/-- A write of the core is the memory system's (R100). -/
theorem State.store_undebugged {s : State} (off : s.pins.dbgen = false) (ack : s.dbg.ack = false) (k : Access)
    (n : Size) (priv : Bool) (va v : Word) :
    s.store k n priv va v = ((s.memsys.write s.platform.bigEndian s.cp15 k n priv va v).1,
      { s with memsys := (s.memsys.write s.platform.bigEndian s.cp15 k n priv va v).2 }) := by
  unfold State.store
  rw [State.debugSpeed_quiet ack]
  simp only [Bool.false_eq_true, if_false, State.watch_quiet off]
  generalize s.memsys.write s.platform.bigEndian s.cp15 k n priv va v = x
  obtain ⟨w | i | r, ms⟩ := x <;> rfl

theorem State.load_abort_dbg {s : State} (off : s.pins.dbgen = false) (ack : s.dbg.ack = false) {k : Access}
    {n : Size} {priv : Bool} {va : Word} {i : AbortInfo} (h : (s.load k n priv va).1 = .abort i) : i.dbg = false :=
  MemSys.read_abort_dbg (((State.load_undebugged off ack k n priv va).2.1 i).1 h)

theorem State.store_abort_dbg {s : State} (off : s.pins.dbgen = false) (ack : s.dbg.ack = false) {k : Access}
    {n : Size} {priv : Bool} {va v : Word} {i : AbortInfo} (h : (s.store k n priv va v).1 = .abort i) :
    i.dbg = false := by
  rw [State.store_undebugged off ack] at h
  exact MemSys.write_abort_dbg h

theorem State.Accessed.pins {s u : State} (h : s.Accessed u) : u.pins = s.pins := by rw [h.same]

end Sys2Proof.Machine
end

section
/-! # Aborted swaps -/

namespace Sys2Proof.Machine

/-! ## The second phase translates as the first did -/

theorem MemSys.translate_of_hit {big : Bool} {cp : Cp15} {mva : Word} {ms : MemSys} {e : TlbEntry}
    (h : ms.tlbLookup mva = some e) : ms.translate big cp mva = (.ok e, ms) := by
  unfold MemSys.translate
  rw [h]

/-- What a translation found answers from then on (R114). -/
theorem MemSys.translate_answers {big : Bool} {cp : Cp15} {mva : Word} {ms m : MemSys} {e : TlbEntry}
    (h : ms.translate big cp mva = (.ok e, m)) : ∃ p, m.tlbLookup mva = some { e with preserve := p } := by
  unfold MemSys.translate at h
  split at h
  · rename_i e' hit
    cases h
    exact ⟨e.preserve, hit⟩
  · rename_i miss
    have tlb := (ms.onBus_walk big cp.ttb mva).tlb
    rcases walked : ms.walk big cp.ttb mva with ⟨_ | d | _ | e', m'⟩ <;> rw [walked] at h tlb
    · cases h
    · cases h
    · cases h
    · cases h
      exact ⟨m'.tlbPreserve, MemSys.tlbLookup_tlbFill ((MemSys.tlbLookup_congr tlb mva).trans miss)
        (MemSys.walk_hits (congrArg Prod.fst walked))⟩

/-- Once an access was let through, another to its address is decided by the entry found, with no table walk: it
changes nothing, and it aborts if it would have aborted before. -/
theorem MemSys.resolve_again {big : Bool} {cp : Cp15} {k k' : Access} {n : Size} {priv : Bool} {va : Word}
    {ms m m' : MemSys} {r : Route} (h : ms.resolve big cp k n priv va = (.ok r, m))
    (alike : misaligned k' n va = misaligned k n va) (tlb : m'.tlb = m.tlb) :
    (m'.resolve big cp k' n priv va).2 = m' ∧
      ∀ i, (ms.resolve big cp k' n priv va).1 = .abort i → (m'.resolve big cp k' n priv va).1 = .abort i := by
  have aligned : (cp.alignOn && misaligned k n va) = false := by
    rw [← Bool.not_eq_true]
    intro faults
    rw [MemSys.resolve_misaligned faults] at h
    cases h
  have aligned' := aligned
  rw [← alike] at aligned'
  rw [MemSys.resolve_aligned aligned] at h
  rw [MemSys.resolve_aligned aligned', MemSys.resolve_aligned aligned']
  unfold MemSys.route at h ⊢
  split at h
  · rename_i on
    rcases translated : ms.translate big cp (accessMva cp n va) with ⟨e | i | stop, m₁⟩ <;> rw [translated] at h
    · simp only at h
      split at h
      · cases h
        obtain ⟨p, answers⟩ := MemSys.translate_answers translated
        have again := MemSys.translate_of_hit (big := big) (cp := cp)
          ((MemSys.tlbLookup_congr tlb (accessMva cp n va)).trans answers)
        simp only [if_pos on, again]
        have check : TlbEntry.check cp k' priv { e with preserve := p } = e.check cp k' priv := rfl
        rw [check]
        cases e.check cp k' priv with
        | none => exact ⟨rfl, nofun⟩
        | some code => exact ⟨rfl, fun _ => id⟩
      · cases h
    · cases h
    · cases h
  · rename_i off
    simp only [if_neg off]
    exact ⟨trivial, nofun⟩

/-! ## What the two phases leave -/

/-- Steps 1 to 3 leave cache and write buffer alone (R100). -/
theorem MemSys.resolve_cache_wbuf (big : Bool) (cp : Cp15) (k : Access) (n : Size) (priv : Bool) (va : Word)
    (ms : MemSys) :
    (ms.resolve big cp k n priv va).2.cache = ms.cache ∧ (ms.resolve big cp k n priv va).2.wbuf = ms.wbuf := by
  have translated (mva : Word) :
      (ms.translate big cp mva).2.cache = ms.cache ∧ (ms.translate big cp mva).2.wbuf = ms.wbuf := by
    have walked := ms.onBus_walk big cp.ttb mva
    unfold MemSys.translate
    split
    · exact ⟨rfl, rfl⟩
    · generalize ms.walk big cp.ttb mva = x at walked ⊢
      obtain ⟨found, m⟩ := x
      cases found <;> exact ⟨walked.cache, walked.wbuf⟩
  unfold MemSys.resolve MemSys.route
  split
  · exact ⟨rfl, rfl⟩
  · split
    · have t := translated (accessMva cp n va)
      generalize ms.translate big cp (accessMva cp n va) = x at t ⊢
      obtain ⟨e | i | r, m⟩ := x
      · simp only
        split <;> exact t
      · exact t
      · exact t
    · exact ⟨rfl, rfl⟩

/-- The read of a swap that is let through is an external one (R100 step 4). -/
theorem MemSys.read_swapRead {big : Bool} {cp : Cp15} {n : Size} {priv : Bool} {va : Word} {ms m : MemSys} {r : Route}
    (h : ms.resolve big cp .swapRead n priv va = (.ok r, m)) :
    ms.read big cp .swapRead n priv va = m.externalRead big .swapRead n r (accessMva cp n va) := by
  unfold MemSys.read MemSys.readRoute
  rw [h]
  simp

/-- The read of a swap leaves the cache alone, whatever it meets (R350). -/
theorem MemSys.read_swapRead_cache (big : Bool) (cp : Cp15) (n : Size) (priv : Bool) (va : Word) (ms : MemSys) :
    (ms.read big cp .swapRead n priv va).2.cache = ms.cache := by
  have resolved := (ms.resolve_cache_wbuf big cp .swapRead n priv va).1
  rcases e : ms.resolve big cp .swapRead n priv va with ⟨r | i | stop, m⟩ <;> rw [e] at resolved
  · rw [MemSys.read_swapRead e]
    exact (MemSys.onBus_externalRead ..).cache.trans resolved
  · unfold MemSys.read
    rw [e]
    exact resolved
  · unfold MemSys.read
    rw [e]
    exact resolved

/-- An external read performs the buffered writes and changes memory no further, when no other master writes. -/
theorem MemSys.externalRead_mem (big : Bool) (k : Access) (n : Size) (r : Route) (mva : Word) {ms : MemSys}
    (alone : ∀ a ∈ answersTaken (ms.drain big).answers, a.writes = []) :
    (ms.externalRead big k n r mva).2.mem = (ms.drain big).mem := by
  obtain ⟨j, bus, e⟩ := MemSys.transfer_alone
    ⟨r.pa, n, none, some (r.prot k), k == .swapRead, k.burst, k.trans⟩ alone
  unfold MemSys.externalRead
  simp only [e]
  split
  · exact MemSys.externalAbort_mem ..
  · rfl

/-- While a locked transfer is repeated no other master writes (R101). -/
theorem MemSys.drive_locked_mem {t : BusTransfer} (lock : t.lock = true) (l : List BusAnswer) (ms : MemSys) :
    (ms.drive t l true).2.mem = ms.mem := by
  induction l generalizing ms with
  | nil => rfl
  | cons a rest ih =>
    unfold MemSys.drive
    simp only [lock, Bool.and_self, if_true]
    split
    · exact ih _
    · rfl

/-- The write of a swap that aborts changes no memory, with nothing buffered and no table walk to make. -/
theorem MemSys.write_swapWrite_mem {big : Bool} {cp : Cp15} {n : Size} {priv : Bool} {va v : Word} {ms : MemSys}
    {i : AbortInfo} (empty : ms.wbuf = []) (resolved : (ms.resolve big cp .swapWrite n priv va).2 = ms)
    (aborted : (ms.write big cp .swapWrite n priv va v).1 = .abort i) :
    (ms.write big cp .swapWrite n priv va v).2.mem = ms.mem ∧
      (ms.write big cp .swapWrite n priv va v).2.wbuf = [] := by
  rcases e : ms.resolve big cp .swapWrite n priv va with ⟨r | fault | stop, m⟩ <;>
    rw [e] at resolved <;> simp only at resolved <;> subst resolved
  · obtain ⟨cache, route⟩ := m.writeRoute_unbuffered big (cp := cp) (k := .swapWrite) n (accessMva cp n va) v (r := r)
      (by simp)
    have written : m.write big cp .swapWrite n priv va v =
        (m.withLines cache true).externalWrite big .swapWrite n r (accessMva cp n va) v := by
      unfold MemSys.write
      rw [e]
      exact route
    rw [written] at aborted ⊢
    refine ⟨?_, (MemSys.onBus_externalWrite ..).wbuf⟩
    have drained : (m.withLines cache true).drain big = m.withLines cache true := by
      unfold MemSys.drain MemSys.withLines
      simp only [empty]
      rfl
    unfold MemSys.externalWrite at aborted ⊢
    rw [drained] at aborted ⊢
    simp only at aborted ⊢
    split at aborted
    · rename_i error
      rw [if_pos error, MemSys.externalAbort_mem]
      exact MemSys.drive_locked_mem rfl ..
    · cases aborted
  · rw [MemSys.write_of_abort (congrArg Prod.fst e), e]
    exact ⟨rfl, empty⟩
  · unfold MemSys.write
    rw [e]
    exact ⟨rfl, empty⟩

/-! ## The instruction -/

theorem State.conditional_effect {s : State} {c : Cond} {broken : Option Restriction} (effect : State → Out)
    (passes : s.passes c = true) (sound : broken = none) : s.conditional c broken effect = effect s := by
  rw [sound]
  exact State.conditional_passes effect passes

/-- An aborted read ends a swap (R350). -/
theorem State.swap_read_aborts {s : State} (off : s.pins.dbgen = false) (ack : s.dbg.ack = false) {n : Size}
    {a : Word} {i : AbortInfo} (rd : Reg) (value : Word → Word) (src : Word)
    (aborted : (s.memsys.read s.platform.bigEndian s.cp15 .swapRead n s.privileged a).1 = .abort i) :
    ∃ t, s.swap n rd value a src = .next t ∧
      s.DataAborted s i (s.memsys.read s.platform.bigEndian s.cp15 .swapRead n s.privileged a).2 t := by
  obtain ⟨after, aborts, -⟩ := State.load_undebugged off ack .swapRead n s.privileged a
  have same := (s.accessed_load .swapRead n s.privileged a).sameRegisters
  have got := (aborts i).2 aborted
  refine ⟨_, ?_, same.dataAborted (State.load_abort_dbg off ack got) (by rw [after])⟩
  unfold State.swap
  rw [← Prod.mk.eta (p := s.load .swapRead n s.privileged a), got]

/-- An aborted write ends a swap with the cache as the read left it (R350). -/
theorem State.swap_write_aborts {s : State} (off : s.pins.dbgen = false) (ack : s.dbg.ack = false) {n : Size}
    {a src w : Word} {i : AbortInfo} (rd : Reg) (value : Word → Word) {ms : MemSys}
    (first : s.memsys.read s.platform.bigEndian s.cp15 .swapRead n s.privileged a = (.ok w, ms))
    (aborted : (ms.write s.platform.bigEndian s.cp15 .swapWrite n s.privileged a src).1 = .abort i) :
    ∃ t, s.swap n rd value a src = .next t ∧
      s.DataAborted s i
        { (ms.write s.platform.bigEndian s.cp15 .swapWrite n s.privileged a src).2 with cache := ms.cache } t := by
  obtain ⟨after, -, completes⟩ := State.load_undebugged off ack .swapRead n s.privileged a
  obtain ⟨w', got⟩ := completes.2 ⟨w, congrArg Prod.fst first⟩
  rw [first] at after
  have stored := State.store_undebugged (s := { s with memsys := ms }) off ack .swapWrite n s.privileged a src
  have same : s.SameRegisters { s with
      memsys := { (ms.write s.platform.bigEndian s.cp15 .swapWrite n s.privileged a src).2 with cache := ms.cache } } :=
    ⟨_, s.dbg, s.draws, s.calls, rfl⟩
  refine ⟨_, ?_, same.dataAborted (MemSys.write_abort_dbg aborted) rfl⟩
  unfold State.swap
  rw [← Prod.mk.eta (p := s.load .swapRead n s.privileged a), got, after]
  simp only
  rw [show State.privileged { s with memsys := ms } = s.privileged from rfl, stored]
  simp only [aborted]

/-- A swap aborted by steps 1 to 3 of either access, on a quiet machine (R350). -/
theorem State.Quiet.swap_aborts {s : State} (q : s.Quiet) {n : Size} {a : Word} {i : AbortInfo} (rd : Reg)
    (value : Word → Word) (src : Word)
    (aborted : s.Aborts .swapRead n s.privileged a i ∨
      ((∃ r, s.Reaches .swapRead n s.privileged a r) ∧ s.Aborts .swapWrite n s.privileged a i)) :
    ∃ t ms, s.swap n rd value a src = .next t ∧ s.DataAborted s i ms t ∧ ms.cache = s.memsys.cache ∧
      MemSys.Kept s.platform.bigEndian s.memsys ms := by
  have kept := q.calm.kept_read (big := s.platform.bigEndian) s.cp15 .swapRead n s.privileged a
  have cache := s.memsys.read_swapRead_cache s.platform.bigEndian s.cp15 n s.privileged a
  rcases aborted with aborted | ⟨⟨r, reaches⟩, aborted⟩
  · obtain ⟨t, run, taken⟩ := State.swap_read_aborts q.dbgen q.ack rd value src
      (congrArg Prod.fst (MemSys.read_of_abort aborted))
    exact ⟨t, _, run, taken, cache, kept⟩
  · obtain ⟨m, resolved⟩ : ∃ m,
        s.memsys.resolve s.platform.bigEndian s.cp15 .swapRead n s.privileged a = (.ok r, m) :=
      ⟨_, Prod.ext reaches rfl⟩
    have first : s.memsys.read s.platform.bigEndian s.cp15 .swapRead n s.privileged a = (.ok _, _) :=
      Prod.ext (q.read reaches) rfl
    have tlb : (s.memsys.read s.platform.bigEndian s.cp15 .swapRead n s.privileged a).2.tlb = m.tlb := by
      rw [MemSys.read_swapRead resolved]
      exact (MemSys.onBus_externalRead ..).tlb
    obtain ⟨unchanged, aborts⟩ := MemSys.resolve_again resolved (k' := .swapWrite) rfl tlb
    have written := MemSys.write_of_abort (v := src) (aborts i aborted)
    rw [unchanged] at written
    obtain ⟨t, run, taken⟩ := State.swap_write_aborts q.dbgen q.ack rd value first (congrArg Prod.fst written)
    rw [written] at taken
    exact ⟨t, _, run, taken, cache, kept⟩

/-- An aborted swap, whatever aborted it, has put the cache back; and where the read was let through, memory has
the buffered writes performed and no more (R136, R350). -/
theorem State.swap_aborts {s : State} (off : s.pins.dbgen = false) (ack : s.dbg.ack = false) {n : Size} {a : Word}
    {i : AbortInfo} (rd : Reg) (value : Word → Word) (src : Word)
    (aborted : (s.load .swapRead n s.privileged a).1 = .abort i ∨ ∃ w, (s.load .swapRead n s.privileged a).1 = .ok w ∧
      ((s.load .swapRead n s.privileged a).2.store .swapWrite n s.privileged a src).1 = .abort i) :
    ∃ t ms, s.swap n rd value a src = .next t ∧ s.DataAborted s i ms t ∧ ms.cache = s.memsys.cache ∧
      ∀ r m, s.memsys.resolve s.platform.bigEndian s.cp15 .swapRead n s.privileged a = (.ok r, m) →
        (∀ x ∈ answersTaken (m.drain s.platform.bigEndian).answers, x.writes = []) →
        ms.mem = (m.drain s.platform.bigEndian).mem ∧ ms.wbuf = [] := by
  obtain ⟨after, aborts, completes⟩ := State.load_undebugged off ack .swapRead n s.privileged a
  have cache := s.memsys.read_swapRead_cache s.platform.bigEndian s.cp15 n s.privileged a
  have read {r : Route} {m : MemSys}
      (resolved : s.memsys.resolve s.platform.bigEndian s.cp15 .swapRead n s.privileged a = (.ok r, m))
      (alone : ∀ x ∈ answersTaken (m.drain s.platform.bigEndian).answers, x.writes = []) :
      (s.memsys.read s.platform.bigEndian s.cp15 .swapRead n s.privileged a).2.mem =
          (m.drain s.platform.bigEndian).mem ∧
        (s.memsys.read s.platform.bigEndian s.cp15 .swapRead n s.privileged a).2.wbuf = [] := by
    rw [MemSys.read_swapRead resolved]
    exact ⟨MemSys.externalRead_mem _ _ _ _ _ alone, (MemSys.onBus_externalRead ..).wbuf⟩
  rcases aborted with aborted | ⟨w, got, aborted⟩
  · obtain ⟨t, run, taken⟩ := State.swap_read_aborts off ack rd value src ((aborts i).1 aborted)
    exact ⟨t, _, run, taken, cache, fun r m resolved alone => read resolved alone⟩
  · obtain ⟨w', ok⟩ := completes.1 ⟨w, got⟩
    have first : s.memsys.read s.platform.bigEndian s.cp15 .swapRead n s.privileged a = (.ok w', _) :=
      Prod.ext ok rfl
    rw [after, State.store_undebugged (by exact off) (by exact ack)] at aborted
    obtain ⟨t, run, taken⟩ := State.swap_write_aborts off ack rd value first aborted
    refine ⟨t, _, run, taken, cache, fun r m resolved alone => ?_⟩
    have tlb : (s.memsys.read s.platform.bigEndian s.cp15 .swapRead n s.privileged a).2.tlb = m.tlb := by
      rw [MemSys.read_swapRead resolved]
      exact (MemSys.onBus_externalRead ..).tlb
    obtain ⟨mem, wbuf⟩ := read resolved alone
    obtain ⟨unchanged, -⟩ := MemSys.resolve_again resolved (k' := .swapWrite) rfl tlb
    obtain ⟨mem', wbuf'⟩ := MemSys.write_swapWrite_mem wbuf unchanged aborted
    exact ⟨mem'.trans mem, wbuf'⟩

theorem exec_armSwp (c : Cond) (rn rd rm : Reg) (s : State) :
    exec (.armSwp c rn rd rm) s = execArmSwp c rn rd rm s := rfl

theorem exec_armSwpb (c : Cond) (rn rd rm : Reg) (s : State) :
    exec (.armSwpb c rn rd rm) s = execArmSwpb c rn rd rm s := rfl

/-- SWP and SWPB are the swap of a word and of a byte. -/
theorem State.exec_swap {s : State} {c : Cond} {rn rd rm : Reg} (passes : s.passes c = true) {p : Instr × Size}
    (h : p ∈ [(Instr.armSwp c rn rd rm, Size.word), (.armSwpb c rn rd rm, .byte)]) (sound : p.1.broken = none) :
    ∃ value, exec p.1 s = s.swap p.2 rd value (s.reg rn) (s.reg rm) := by
  simp only [List.mem_cons, List.not_mem_nil, or_false] at h
  rcases h with rfl | rfl
  · exact ⟨_, (exec_armSwp c rn rd rm s).trans (State.conditional_effect _ passes sound)⟩
  · exact ⟨_, (exec_armSwpb c rn rd rm s).trans (State.conditional_effect _ passes sound)⟩

theorem State.DataAborted.byteAt {s x t : State} {i : AbortInfo} {ms : MemSys} (h : s.DataAborted x i ms t)
    (kept : MemSys.Kept s.platform.bigEndian s.memsys ms) (a : Nat) : t.byteAt a = s.byteAt a := by
  unfold State.byteAt State.settled
  rw [h.memsys, h.platform, kept.settled]

/-- Settles O39. -/
theorem dataAbortOfSwap : Obligations.DataAbortOfSwap := by
  intro s c rn rd rm i passes a p member sound
  obtain ⟨value, run⟩ := State.exec_swap passes member sound
  rw [run]
  refine ⟨fun q aborted => ?_, ?_⟩
  · obtain ⟨t, ms, next, taken, cache, kept⟩ := q.swap_aborts rd value (s.reg rm) aborted
    exact ⟨t, next, taken.entered, taken.cp15, by rw [taken.memsys, cache], taken.byteAt kept⟩
  · intro off ack read aborted
    obtain ⟨t, ms, next, taken, cache, memory⟩ := State.swap_aborts off ack rd value (s.reg rm) aborted
    exact ⟨t, next, taken.entered, taken.cp14, taken.cp15, by rw [taken.memsys, cache],
      fun r m resolved alone => by rw [taken.memsys]; exact memory r m resolved alone⟩

end Sys2Proof.Machine
end

section
/-! # Aborted loads and stores -/

namespace Sys2Proof.Machine

/-! ## What the loads and stores of one datum do -/

/-- Where a transfer goes, as its meaning has it. -/
def Transfer.place (p : Transfer) : Place := ⟨p.addr, p.base, p.priv⟩

theorem State.place_eq (index : Index) (up : Bool) (rn : Reg) (off : Word) (s : State) :
    s.place index up rn off =
      ⟨(s.modeAddress index up rn off).1, (s.modeAddress index up rn off).2, s.privileged⟩ := by
  cases index <;> rfl

/-- A field of the instruction with zeros appended is a multiple of it (R450). -/
theorem zeroExtend_append_zero {w : Nat} (x : BitVec w) (k : Nat) (h : w + k ≤ 32) :
    (x ++ 0#k).zeroExtend 32 = BitVec.ofNat 32 (2 ^ k * x.toNat) := by
  apply BitVec.eq_of_toNat_eq
  have top : x.toNat * 2 ^ k < 2 ^ 32 := by
    calc x.toNat * 2 ^ k < 2 ^ w * 2 ^ k := (Nat.mul_lt_mul_right (Nat.two_pow_pos k)).2 x.isLt
      _ = 2 ^ (w + k) := (Nat.pow_add ..).symm
      _ ≤ 2 ^ 32 := Nat.pow_le_pow_right (by decide) h
  simp only [BitVec.zeroExtend, BitVec.toNat_setWidth, BitVec.toNat_append, BitVec.toNat_ofNat, Nat.zero_mod,
    Nat.or_zero, Nat.shiftLeft_eq, Nat.mul_comm (2 ^ k)]

theorem wordOffset_eq {w : Nat} (x : BitVec w) (h : w + 2 ≤ 32) : wordOffset x = BitVec.ofNat 32 (4 * x.toNat) :=
  zeroExtend_append_zero x 2 h

theorem zeroExtend_eq_ofNat {w : Nat} (x : BitVec w) : x.zeroExtend 32 = BitVec.ofNat 32 x.toNat := by
  apply BitVec.eq_of_toNat_eq
  simp

/-- What a load of one datum does: a halfword load at an odd address, with alignment checking off, gives a free
value (R300, R311, R316, R450). -/
def State.loadsTo (s : State) (p : Transfer) : Out :=
  if p.oddHalf then s.draw.2.loadTo p.size p.place (fun _ => s.draw.1) p.rd
  else s.loadTo p.size p.place p.value p.rd

/-- What a store of one datum does: STRH at an odd address with alignment checking off is refused (R97, R300). -/
def State.storesFrom (s : State) (p : Transfer) : Out :=
  if p.oddHalf && !s.cp15.alignOn && !s.debugSpeed then .refused .oddHalfwordStore
  else s.storeRegTo p.size p.place p.rd

theorem State.armLoads2_exec {s : State} {c : Cond} {index : Index} {up : Bool} {rn rd : Reg} {off : Offset2}
    {p : Transfer} (passes : s.passes c = true) (member : p ∈ s.armLoads2 c index up rn rd off)
    (sound : p.instr.broken = none) : exec p.instr s = s.loadsTo p := by
  simp only [State.armLoads2, List.mem_cons, List.not_mem_nil, or_false] at member
  rcases member with rfl | rfl | rfl | rfl
  · show execArmLdr c index up rn rd off s = _
    refine (State.conditional_effect _ passes sound).trans ?_
    simp only [State.place_eq]
    rfl
  · show execArmLdrb c index up rn rd off s = _
    refine (State.conditional_effect _ passes sound).trans ?_
    simp only [State.place_eq]
    rfl
  · show execArmLdrt c up rn rd off s = _
    exact State.conditional_effect _ passes sound
  · show execArmLdrbt c up rn rd off s = _
    exact State.conditional_effect _ passes sound

theorem State.armLoads3_exec {s : State} {c : Cond} {index : Index} {up : Bool} {rn rd : Reg} {off : Offset3}
    {p : Transfer} (passes : s.passes c = true) (member : p ∈ s.armLoads3 c index up rn rd off)
    (sound : p.instr.broken = none) : exec p.instr s = s.loadsTo p := by
  simp only [State.armLoads3, List.mem_cons, List.not_mem_nil, or_false] at member
  rcases member with rfl | rfl | rfl
  · show execArmLdrh c index up rn rd off s = _
    refine (State.conditional_effect _ passes sound).trans ?_
    simp only [State.place_eq]
    rfl
  · show execArmLdrsb c index up rn rd off s = _
    refine (State.conditional_effect _ passes sound).trans ?_
    simp only [State.place_eq]
    rfl
  · show execArmLdrsh c index up rn rd off s = _
    refine (State.conditional_effect _ passes sound).trans ?_
    simp only [State.place_eq]
    rfl

theorem State.thumbLoads_exec {s : State} {ro rb rd : LowReg} {imm5 : BitVec 5} {word8 : BitVec 8} {p : Transfer}
    (member : p ∈ s.thumbLoads ro rb rd imm5 word8) : exec p.instr s = s.loadsTo p := by
  simp only [State.thumbLoads, List.mem_cons, List.not_mem_nil, or_false] at member
  rcases member with rfl | rfl | rfl | rfl | rfl | rfl | rfl | rfl | rfl | rfl
  · show s.loadWordAt (s.pcBase + wordOffset word8) rd = _
    rw [wordOffset_eq word8 (by decide)]
    rfl
  · show s.loadWordAt (s.reg rb.reg + s.reg ro.reg) rd = _
    rfl
  · show execThumbLdrbReg ro rb rd s = _
    rfl
  · show execThumbLdrsbReg ro rb rd s = _
    rfl
  · show execThumbLdrhReg ro rb rd s = _
    rfl
  · show execThumbLdrshReg ro rb rd s = _
    rfl
  · show s.loadWordAt (s.reg rb.reg + wordOffset imm5) rd = _
    rw [wordOffset_eq imm5 (by decide)]
    rfl
  · show s.loadTo .byte (s.placeAt (s.reg rb.reg + imm5.zeroExtend 32)) id rd.reg = _
    rw [zeroExtend_eq_ofNat]
    rfl
  · show s.loadHalfTo (s.placeAt (s.reg rb.reg + (imm5 ++ 0#1).zeroExtend 32)) id rd.reg = _
    rw [zeroExtend_append_zero imm5 1 (by decide)]
    rfl
  · show s.loadWordAt (s.reg 13 + wordOffset word8) rd = _
    rw [wordOffset_eq word8 (by decide)]
    rfl

theorem State.armStores2_exec {s : State} {c : Cond} {index : Index} {up : Bool} {rn rd : Reg} {off : Offset2}
    {p : Transfer} (passes : s.passes c = true) (member : p ∈ s.armStores2 c index up rn rd off)
    (sound : p.instr.broken = none) : exec p.instr s = s.storesFrom p := by
  simp only [State.armStores2, List.mem_cons, List.not_mem_nil, or_false] at member
  rcases member with rfl | rfl | rfl | rfl
  · show execArmStr c index up rn rd off s = _
    refine (State.conditional_effect _ passes sound).trans ?_
    simp only [State.place_eq]
    rfl
  · show execArmStrb c index up rn rd off s = _
    refine (State.conditional_effect _ passes sound).trans ?_
    simp only [State.place_eq]
    rfl
  · show execArmStrt c up rn rd off s = _
    exact State.conditional_effect _ passes sound
  · show execArmStrbt c up rn rd off s = _
    exact State.conditional_effect _ passes sound

theorem State.armStores3_exec {s : State} {c : Cond} {index : Index} {up : Bool} {rn rd : Reg} {off : Offset3}
    {p : Transfer} (passes : s.passes c = true) (member : p ∈ s.armStores3 c index up rn rd off)
    (sound : p.instr.broken = none) : exec p.instr s = s.storesFrom p := by
  simp only [State.armStores3, List.mem_singleton] at member
  subst member
  show execArmStrh c index up rn rd off s = _
  refine (State.conditional_effect _ passes sound).trans ?_
  simp only [State.place_eq]
  rfl

theorem State.thumbStores_exec {s : State} {ro rb rd : LowReg} {imm5 : BitVec 5} {word8 : BitVec 8} {p : Transfer}
    (member : p ∈ s.thumbStores ro rb rd imm5 word8) : exec p.instr s = s.storesFrom p := by
  simp only [State.thumbStores, List.mem_cons, List.not_mem_nil, or_false] at member
  rcases member with rfl | rfl | rfl | rfl | rfl | rfl | rfl
  · show execThumbStrReg ro rb rd s = _
    rfl
  · show execThumbStrbReg ro rb rd s = _
    rfl
  · show execThumbStrhReg ro rb rd s = _
    rfl
  · show s.storeRegTo .word (s.placeAt (s.reg rb.reg + wordOffset imm5)) rd.reg = _
    rw [wordOffset_eq imm5 (by decide)]
    rfl
  · show s.storeRegTo .byte (s.placeAt (s.reg rb.reg + imm5.zeroExtend 32)) rd.reg = _
    rw [zeroExtend_eq_ofNat]
    rfl
  · show s.storeHalf (s.placeAt (s.reg rb.reg + (imm5 ++ 0#1).zeroExtend 32)) rd.reg = _
    rw [zeroExtend_append_zero imm5 1 (by decide)]
    rfl
  · show s.storeRegTo .word (s.placeAt (s.reg 13 + wordOffset word8)) rd.reg = _
    rw [wordOffset_eq word8 (by decide)]
    rfl

/-- A load that executes, by its kind (R300, R311, R450). -/
theorem State.IsLoad.exec_eq {s : State} {p : Transfer} (h : s.IsLoad p) : exec p.instr s = s.loadsTo p := by
  obtain ⟨sound, ⟨c, index, up, rn, rd, off, passes, member⟩ | ⟨c, index, up, rn, rd, off, passes, member⟩ |
    ⟨ro, rb, rd, imm5, word8, member⟩⟩ := h
  · exact State.armLoads2_exec passes member sound
  · exact State.armLoads3_exec passes member sound
  · exact State.thumbLoads_exec member

/-- A store that executes, by its kind (R300, R311, R450). -/
theorem State.IsStore.exec_eq {s : State} {p : Transfer} (h : s.IsStore p) : exec p.instr s = s.storesFrom p := by
  obtain ⟨sound, ⟨c, index, up, rn, rd, off, passes, member⟩ | ⟨c, index, up, rn, rd, off, passes, member⟩ |
    ⟨ro, rb, rd, imm5, word8, member⟩⟩ := h
  · exact State.armStores2_exec passes member sound
  · exact State.armStores3_exec passes member sound
  · exact State.thumbStores_exec member

/-! ## The base is written back before the abort is taken -/

theorem State.withBase_eq (s : State) (rn : Reg) (newBase : Option Word) :
    s.withBase rn newBase = s ∨ ∃ i v, s.withBase rn newBase = s.setReg i v := by
  cases newBase with
  | none => exact .inl rfl
  | some v => exact .inr ⟨rn, v, rfl⟩

theorem Transfer.writeBase_eq (p : Transfer) (s : State) :
    p.writeBase s = s ∨ ∃ rn v, p.writeBase s = s.setReg rn v := by
  unfold Transfer.writeBase
  split
  · exact .inl rfl
  · exact .inr ⟨_, _, rfl⟩

theorem State.writeBack_memsys (p : Place) (s : State) : (s.writeBack p).memsys = s.memsys := by
  unfold State.writeBack
  split <;> simp

theorem State.writeBlockBase_memsys (rn : Reg) (newBase : Option Word) (s : State) :
    (s.writeBlockBase rn newBase).memsys = s.memsys := by
  unfold State.writeBlockBase
  split <;> simp

theorem State.SameRegisters.writeBack {s u : State} (h : s.SameRegisters u) (p : Transfer) :
    (p.writeBase s).SameRegisters (u.writeBack p.place) := by
  unfold Transfer.writeBase State.writeBack Transfer.place
  cases p.base with
  | none => exact h
  | some x => exact h.setReg x.1 x.2

theorem State.SameRegisters.withBase {s u : State} (h : s.SameRegisters u) (rn : Reg) (newBase : Option Word) :
    (s.withBase rn newBase).SameRegisters (u.writeBlockBase rn newBase) := by
  cases newBase with
  | none => exact h
  | some v => exact h.setReg rn v

/-- The return address, FSR and FAR of a Data Abort taken after a write-back are those of the state before it. -/
theorem State.DataAborted.of_base {s x t : State} {i : AbortInfo} {ms : MemSys} (h : x.DataAborted x i ms t)
    (base : x = s ∨ ∃ rn v, x = s.setReg rn v) : s.DataAborted x i ms t := by
  obtain ⟨entered, cp15, cp14, platform, memsys⟩ := h
  rcases base with rfl | ⟨rn, v, rfl⟩
  · exact ⟨entered, cp15, cp14, platform, memsys⟩
  · simp only [State.setReg_pc, State.setReg_cp15, State.setReg_cp14, State.setReg_platform] at *
    exact ⟨entered, cp15, cp14, platform, memsys⟩

/-! ## One datum -/

/-- A load whose access aborts (R300, R317, R450). -/
theorem State.IsLoad.aborts {s : State} {p : Transfer} (h : s.IsLoad p) (off : s.pins.dbgen = false)
    (ack : s.dbg.ack = false) {i : AbortInfo}
    (aborted : (s.memsys.read s.platform.bigEndian s.cp15 .read p.size p.priv p.addr).1 = .abort i) :
    ∃ t, exec p.instr s = .next t ∧ s.DataAborted (p.writeBase s) i
      (s.memsys.read s.platform.bigEndian s.cp15 .read p.size p.priv p.addr).2 t := by
  have load (d : Nat) (value : Word → Word) : ∃ t,
      State.loadTo p.size p.place value p.rd { s with draws := d } = .next t ∧
        s.DataAborted (p.writeBase s) i
          (s.memsys.read s.platform.bigEndian s.cp15 .read p.size p.priv p.addr).2 t := by
    obtain ⟨after, aborts, -⟩ :=
      State.load_undebugged (s := { s with draws := d }) off ack .read p.size p.priv p.addr
    have got := (aborts i).2 aborted
    have same : s.SameRegisters (State.load .read p.size p.priv p.addr { s with draws := d }).2 :=
      ⟨_, s.dbg, d, s.calls, after⟩
    have taken := (same.writeBack p).dataAborted (MemSys.read_abort_dbg aborted)
      ((State.writeBack_memsys ..).trans (congrArg State.memsys after))
    refine ⟨_, ?_, taken.of_base (p.writeBase_eq s)⟩
    unfold State.loadTo
    rw [← Prod.mk.eta (p := State.load .read p.size p.place.priv p.place.addr { s with draws := d }),
      show (State.load .read p.size p.place.priv p.place.addr { s with draws := d }).1 = .abort i from got]
    rfl
  rw [h.exec_eq]
  unfold State.loadsTo
  split
  · exact load (s.draws + 1) _
  · exact load s.draws _

/-- A store whose access aborts (R300, R317, R450). -/
theorem State.IsStore.aborts {s : State} {p : Transfer} (h : s.IsStore p) (off : s.pins.dbgen = false)
    (ack : s.dbg.ack = false) (made : p.oddHalf = true → s.cp15.alignOn = true) {i : AbortInfo}
    (aborted :
      (s.memsys.write s.platform.bigEndian s.cp15 .write p.size p.priv p.addr (s.storeReg p.rd)).1 = .abort i) :
    ∃ t, exec p.instr s = .next t ∧ s.DataAborted (p.writeBase s) i
      (s.memsys.write s.platform.bigEndian s.cp15 .write p.size p.priv p.addr (s.storeReg p.rd)).2 t := by
  have stored := State.store_undebugged off ack .write p.size p.priv p.addr (s.storeReg p.rd)
  have same : s.SameRegisters (s.store .write p.size p.priv p.addr (s.storeReg p.rd)).2 :=
    (s.accessed_store ..).sameRegisters
  have taken := (same.writeBack p).dataAborted (MemSys.write_abort_dbg aborted)
    ((State.writeBack_memsys ..).trans (by rw [stored]))
  refine ⟨_, ?_, taken.of_base (p.writeBase_eq s)⟩
  rw [h.exec_eq]
  unfold State.storesFrom
  rw [if_neg (by cases odd : p.oddHalf <;> simp [odd, made])]
  unfold State.storeRegTo State.storeFrom
  rw [show s.store .write p.size p.place.priv p.place.addr (s.storeReg p.rd) = (.abort i, _) from
    stored.trans (Prod.ext aborted rfl), stored]

/-! ## Blocks -/

/-- A form with ^ that has an SPSR is in a mode with a bank of its own (R37, R333). -/
theorem State.userBankMode_of_spsr {s : State} (h : s.spsrOf s.mode ≠ none) : s.userBankMode = false := by
  unfold State.userBankMode
  revert h
  cases s.mode <;> simp [State.spsrOf]

/-- What a User-bank store stores is the User registers (R338). -/
theorem State.userValues_eq (s : State) (regs : List Reg) : s.userValues regs = regs.map (s.blockValue true) := by
  refine List.map_congr_left fun i _ => ?_
  unfold State.blockValue State.userReg
  split
  · rfl
  · rename_i general
    rfl

/-- STM that executes is its sequence of word stores, then the base (R335, R338). -/
theorem execStm_eq {s : State} {m : BlockMode} {c : Cond} {sf wb : Bool} {rn : Reg} {list : BitVec 16}
    (passes : s.passes c = true) (sound : stmRestriction sf wb rn list = none)
    (bank : sf = true → s.spsrOf s.mode ≠ none) :
    ∃ finish, execStm m c sf wb rn list s =
      s.storeMultiple (m.start (s.reg rn) (listBytes (listedRegs list))) rn
        (if wb then some (m.newBase (s.reg rn) (listBytes (listedRegs list))) else none)
        ((listedRegs list).map (s.blockValue sf)) finish := by
  unfold execStm
  rw [State.conditional_effect _ passes sound]
  cases sf with
  | true =>
    simp only [if_true, State.userBankMode_of_spsr (bank rfl), Bool.false_eq_true, if_false,
      State.userValues_eq]
    exact ⟨_, rfl⟩
  | false => exact ⟨State.advance, rfl⟩

theorem State.armBlockStores_exec {s : State} {c : Cond} {sf wb : Bool} {rn : Reg} {list : BitVec 16} {p : BlockStore}
    (passes : s.passes c = true) (bank : sf = true → s.spsrOf s.mode ≠ none)
    (member : p ∈ s.armBlockStores c sf wb rn list) (sound : p.instr.broken = none) :
    ∃ finish, exec p.instr s = s.storeMultiple p.start p.rn p.newBase p.values finish := by
  simp only [State.armBlockStores, State.stmForms, List.map_cons, List.map_nil, List.mem_cons, List.not_mem_nil,
    or_false] at member
  rcases member with rfl | rfl | rfl | rfl
  · show ∃ finish, execStm .ia c sf wb rn list s = _
    exact execStm_eq passes sound bank
  · show ∃ finish, execStm .ib c sf wb rn list s = _
    exact execStm_eq passes sound bank
  · show ∃ finish, execStm .da c sf wb rn list s = _
    exact execStm_eq passes sound bank
  · show ∃ finish, execStm .db c sf wb rn list s = _
    exact execStm_eq passes sound bank

theorem State.unconditional_effect {s : State} {broken : Option Restriction} (effect : State → Out)
    (sound : broken = none) : s.unconditional broken effect = effect s := by
  rw [sound]
  rfl

theorem State.thumbBlockStores_exec {s : State} {extra : Bool} {rb : LowReg} {list : BitVec 8} {p : BlockStore}
    (member : p ∈ s.thumbBlockStores extra rb list) (sound : p.instr.broken = none) :
    ∃ finish, exec p.instr s = s.storeMultiple p.start p.rn p.newBase p.values finish := by
  simp only [State.thumbBlockStores, List.mem_cons, List.not_mem_nil, or_false] at member
  rcases member with rfl | rfl
  · show ∃ finish, execThumbPush extra list s = _
    refine ⟨State.advance, (State.unconditional_effect _ sound).trans ?_⟩
    cases extra
    · simp only [Bool.false_eq_true, if_false, List.append_nil]; rfl
    · rfl
  · show ∃ finish, execThumbStmia rb list s = _
    refine ⟨State.advance, (State.unconditional_effect _ sound).trans ?_⟩
    have values : s.storedValues (listedRegs list) = (listedRegs list).map s.reg := by
      refine List.map_congr_left fun i listed => if_neg ?_
      rintro rfl
      exact absurd ((mem_listedRegs (by decide) list 15).1 listed) (by simp)
    simp only [values]
    rfl

/-- A block store that executes is its sequence of word stores, then the base (R335, R338, R468, R470). -/
theorem State.IsBlockStore.exec_eq {s : State} {p : BlockStore} (h : s.IsBlockStore p) :
    ∃ finish, exec p.instr s = s.storeMultiple p.start p.rn p.newBase p.values finish := by
  obtain ⟨sound, ⟨c, sf, wb, rn, list, passes, bank, member⟩ | ⟨extra, rb, list, member⟩⟩ := h
  · exact State.armBlockStores_exec passes bank member sound
  · exact State.thumbBlockStores_exec member sound

/-- The abort a sequence of stores reports is no watchpoint's when no debugger watches. -/
theorem State.storeWords_abort_dbg {k : Access} {priv : Bool} {vs : List Word} {a : Word} {b : Block} {s : State}
    (off : s.pins.dbgen = false) (ack : s.dbg.ack = false) (before : ∀ i, b.abort = some i → i.dbg = false) :
    ∀ i, (s.storeWords k priv vs a b).1.abort = some i → i.dbg = false := by
  induction vs generalizing s k a b with
  | nil => exact before
  | cons v rest ih =>
    unfold State.storeWords
    split
    · exact before
    · have reports : ∀ j, (s.store k .word priv a v).1 = .abort j → j.dbg = false :=
        fun j => State.store_abort_dbg off ack
      have accessed := s.accessed_store k .word priv a v
      generalize s.store k .word priv a v = x at reports accessed ⊢
      obtain ⟨got, u⟩ := x
      refine ih (by rw [accessed.pins]; exact off) (accessed.ack.trans ack) fun i taken => ?_
      unfold Block.takeStore at taken
      split at taken
      · exact before i taken
      · split at taken
        · exact before i taken
        · cases taken
          exact reports i rfl
      · exact before i taken

/-- A block store that is aborted at any of its words (R336, R468, R470). -/
theorem State.IsBlockStore.aborts {s u : State} {p : BlockStore} {b : Block} {i : AbortInfo} (h : s.IsBlockStore p)
    (off : s.pins.dbgen = false) (ack : s.dbg.ack = false)
    (stored : s.storeWords .blockWrite s.privileged p.values p.start .empty = (b, u)) (goes : b.stop = none)
    (aborted : b.abort = some i) :
    ∃ t, exec p.instr s = .next t ∧ s.DataAborted (s.withBase p.rn p.newBase) i u.memsys t := by
  obtain ⟨finish, run⟩ := h.exec_eq
  have same := (State.accessed_storeWords .blockWrite s.privileged p.values p.start .empty s).sameRegisters
  have bus := State.storeWords_abort_dbg (k := .blockWrite) (priv := s.privileged) (vs := p.values) (a := p.start)
    (b := .empty) off ack nofun i
  rw [stored] at same bus
  have taken := (same.withBase p.rn p.newBase).dataAborted (bus aborted) (u.writeBlockBase_memsys p.rn p.newBase)
  refine ⟨_, ?_, taken.of_base (s.withBase_eq p.rn p.newBase)⟩
  rw [run]
  unfold State.storeMultiple
  rw [stored]
  simp only [goes, aborted]

/-! ## Coprocessor transfers -/

/-- An attached coprocessor that is ready lets the instruction go on (R355). -/
theorem State.offered_ready {s : State} {cp : BitVec 4} {r : CoprocReply} {rest : List CoprocReply}
    (effect : CoprocReply → State → Out) (attached : s.platform.extCoprocs.getLsbD cp.toNat = true)
    (debug : cp ≠ 14) (system : cp ≠ 15) (answers : s.coproc = r :: rest) (ready : r.answer = .ready) :
    s.offered cp effect = effect r { s with coproc := rest } := by
  have present : s.platform.attached cp = true := by
    unfold Platform.attached
    rw [attached, bne_iff_ne.2 debug, bne_iff_ne.2 system]
    rfl
  unfold State.offered State.offer
  rw [present, answers]
  simp only [if_true, ready]

/-- The words of an LDC change no register, and an abort among them is no watchpoint's. -/
theorem State.loadCoproc_abort {cp crd : BitVec 4} {n : Bool} {opt : Option (BitVec 8)} {count k : Nat} {a : Word}
    {s : State} (off : s.pins.dbgen = false) (ack : s.dbg.ack = false) :
    s.SameRegisters (s.loadCoproc cp crd n opt count k a).2 ∧
      ∀ i, (s.loadCoproc cp crd n opt count k a).1 = .abort i → i.dbg = false := by
  induction count generalizing s k a with
  | zero => exact ⟨(State.Accessed.refl s).sameRegisters, nofun⟩
  | succ count ih =>
    have reports : ∀ j, (s.load (loadKind k) .word s.privileged a).1 = .abort j → j.dbg = false :=
      fun j => State.load_abort_dbg off ack
    have accessed := s.accessed_load (loadKind k) .word s.privileged a
    unfold State.loadCoproc
    generalize s.load (loadKind k) .word s.privileged a = x at reports accessed ⊢
    obtain ⟨w | j | r, u⟩ := x
    · obtain ⟨same, bus⟩ := ih (k := k + 1) (a := a + 4) (s := u.call (.loadWord cp crd n opt k w))
        (by show u.pins.dbgen = false; rw [accessed.pins]; exact off) (accessed.ack.trans ack)
      exact ⟨(accessed.sameRegisters.trans (State.sameRegisters_call ..)).trans same, bus⟩
    · exact ⟨accessed.sameRegisters, fun i e => by cases e; exact reports j rfl⟩
    · exact ⟨accessed.sameRegisters, nofun⟩

/-- The words of an STC change no register, and an abort among them is no watchpoint's. -/
theorem State.storeCoproc_abort {cp crd : BitVec 4} {n : Bool} {opt : Option (BitVec 8)} {vs : List Word} {k : Nat}
    {a : Word} {s : State} (off : s.pins.dbgen = false) (ack : s.dbg.ack = false) :
    s.SameRegisters (s.storeCoproc cp crd n opt vs k a).2 ∧
      ∀ i, (s.storeCoproc cp crd n opt vs k a).1 = .abort i → i.dbg = false := by
  induction vs generalizing s k a with
  | nil => exact ⟨(State.Accessed.refl s).sameRegisters, nofun⟩
  | cons v rest ih =>
    have sent := s.sameRegisters_call (.storeWord cp crd n opt k)
    have reports : ∀ j, ((s.call (.storeWord cp crd n opt k)).store .write .word s.privileged a v).1 = .abort j →
        j.dbg = false := fun j => State.store_abort_dbg (by exact off) (by exact ack)
    have accessed := (s.call (.storeWord cp crd n opt k)).accessed_store .write .word s.privileged a v
    unfold State.storeCoproc
    generalize (s.call (.storeWord cp crd n opt k)).store .write .word s.privileged a v = x at reports accessed ⊢
    obtain ⟨w | j | r, u⟩ := x
    · obtain ⟨same, bus⟩ := ih (k := k + 1) (a := a + 4) (s := u)
        (by rw [accessed.pins]; exact off) (accessed.ack.trans ack)
      exact ⟨(sent.trans accessed.sameRegisters).trans same, bus⟩
    · exact ⟨sent.trans accessed.sameRegisters, reports⟩
    · exact ⟨sent.trans accessed.sameRegisters, nofun⟩

/-- A coprocessor transfer that aborts ends in the Data Abort (R360, R513). -/
theorem endTransfer_abort {x : Got Unit × State} {i : AbortInfo} (h : x.1 = .abort i) :
    endTransfer x = .next (x.2.takeDataAbort i) := by
  obtain ⟨got, u⟩ := x
  obtain rfl : got = .abort i := h
  rfl

/-- The base of a coprocessor transfer as R192 has it. -/
theorem State.coprocBase_eq (p up wb : Bool) (rn : Reg) (off : BitVec 8) (s : State) :
    s.coprocBase p up wb rn off =
      (if p then s.indexedBase up rn (BitVec.ofNat 32 (4 * off.toNat)) else s.reg rn,
        s.withBase rn (if wb then some (s.indexedBase up rn (BitVec.ofNat 32 (4 * off.toNat))) else none)) := by
  have offset : (off ++ 0#2).zeroExtend 32 = BitVec.ofNat 32 (4 * off.toNat) :=
    zeroExtend_append_zero off 2 (by decide)
  unfold State.coprocBase
  simp only [offset]
  cases wb <;> rfl

theorem coprocOption_eq (p wb : Bool) (off : BitVec 8) :
    coprocOption p wb off = if p || wb then none else some off := by
  cases p <;> cases wb <;> rfl

/-- LDC and STC with a coprocessor that is ready are the base and then their words (R360, R361). -/
theorem State.exec_coprocTransfer {s : State} {c : Cond} {p up n wb : Bool} {rn : Reg} {crd cp : BitVec 4}
    {off : BitVec 8} {r : CoprocReply} {rest : List CoprocReply} (passes : s.passes c = true)
    (attached : s.platform.extCoprocs.getLsbD cp.toNat = true) (debug : cp ≠ 14) (system : cp ≠ 15)
    (answers : s.coproc = r :: rest) (ready : r.answer = .ready) (sound : ldcRestriction p up wb rn = none) :
    exec (.armLdc c p up n wb rn crd cp off) s =
        endTransfer ((State.coprocBase p up wb rn off { s with coproc := rest }).2.loadCoproc cp crd n
          (coprocOption p wb off) (1 + r.more.length) 0
          (State.coprocBase p up wb rn off { s with coproc := rest }).1) ∧
      exec (.armStc c p up n wb rn crd cp off) s =
        endTransfer ((State.coprocBase p up wb rn off { s with coproc := rest }).2.storeCoproc cp crd n
          (coprocOption p wb off) (r.first :: r.more) 0
          (State.coprocBase p up wb rn off { s with coproc := rest }).1) := by
  constructor
  · show execArmLdc c p up n wb rn crd cp off s = _
    exact (State.conditional_effect _ passes sound).trans
      (State.offered_ready _ attached debug system answers ready)
  · show execArmStc c p up n wb rn crd cp off s = _
    exact (State.conditional_effect _ passes sound).trans
      (State.offered_ready _ attached debug system answers ready)

/-! ## The statement -/

/-- A load or store that steps 1 to 3 abort, on a quiet machine (R137, R300, R317, R450, R513). -/
theorem State.transfer_aborts {s : State} {p : Transfer} {i : AbortInfo} (q : s.Quiet)
    (h : (s.IsLoad p ∧ s.Aborts .read p.size p.priv p.addr i) ∨
      (s.IsStore p ∧ s.Aborts .write p.size p.priv p.addr i ∧ (p.oddHalf = true → s.cp15.alignOn = true))) :
    ∃ t ms, exec p.instr s = .next t ∧ s.DataAborted (p.writeBase s) i ms t ∧
      MemSys.Kept s.platform.bigEndian s.memsys ms ∧ s.memsys.Served ms := by
  rcases h with ⟨load, aborts⟩ | ⟨store, aborts, made⟩
  · obtain ⟨t, run, taken⟩ := load.aborts q.dbgen q.ack (congrArg Prod.fst (MemSys.read_of_abort aborts))
    exact ⟨t, _, run, taken, q.calm.kept_read .., MemSys.served_read ..⟩
  · have written := MemSys.write_of_abort (v := s.storeReg p.rd) aborts
    obtain ⟨t, run, taken⟩ := store.aborts q.dbgen q.ack made (congrArg Prod.fst written)
    rw [written] at taken
    exact ⟨t, _, run, taken, q.calm.kept_resolve .., MemSys.served_resolve ..⟩

/-- An external load or unbuffered store that draws ERROR (R131, R136). -/
theorem State.transfer_drawsError {s : State} {p : Transfer} {r : Route} {m : MemSys} (off : s.pins.dbgen = false)
    (ack : s.dbg.ack = false)
    (h : (s.IsLoad p ∧ s.DrawsError .read p.size p.priv p.addr r m ∧
        (s.cp15.cacheOn = false ∨ r.cachable = false)) ∨
      (s.IsStore p ∧ s.DrawsError .write p.size p.priv p.addr r m ∧
        (s.cp15.bufferOn = false ∨ r.bufferable = false) ∧ (p.oddHalf = true → s.cp15.alignOn = true))) :
    ∃ t i ms, exec p.instr s = .next t ∧ s.DataAborted (p.writeBase s) i ms t ∧
      i.External r.entry (accessMva s.cp15 p.size p.addr) ∧ ms.mem = (m.drain s.platform.bigEndian).mem ∧
      ms.wbuf = [] := by
  rcases h with ⟨load, ⟨resolved, error, alone⟩, uncached⟩ | ⟨store, ⟨resolved, error, alone⟩, unbuffered, made⟩
  · obtain ⟨i, aborted, info, mem, wbuf⟩ := MemSys.read_error resolved
      (by rcases uncached with h | h <;> simp [h]) error alone
    obtain ⟨t, run, taken⟩ := load.aborts off ack aborted
    exact ⟨t, i, _, run, taken, info, mem, wbuf⟩
  · obtain ⟨i, aborted, info, mem, wbuf⟩ := MemSys.write_error (s.storeReg p.rd) resolved
      (by rcases unbuffered with h | h <;> simp [h]) error alone
    obtain ⟨t, run, taken⟩ := store.aborts off ack made aborted
    exact ⟨t, i, _, run, taken, info, mem, wbuf⟩

/-- A coprocessor transfer whose words end in an abort takes it from the state with the base written back. -/
theorem State.endTransfer_aborts {s x : State} {got : Got Unit × State} {i : AbortInfo}
    (base : x = s ∨ ∃ rn v, x = s.setReg rn v) (same : x.SameRegisters got.2) (bus : i.dbg = false)
    (aborted : got.1 = .abort i) :
    ∃ t, endTransfer got = .next t ∧ s.DataAborted x i got.2.memsys t ∧ t.calls = got.2.calls :=
  ⟨_, endTransfer_abort aborted, (same.dataAborted bus rfl).of_base base, State.takeDataAbort_calls ..⟩

/-- Settles O31. -/
theorem dataAbortOfTransfer : Obligations.DataAbortOfTransfer := by
  refine ⟨fun s p i q h => ?_, fun s p r m off ack h => ?_, fun s u p b i store off ack stored goes aborted => ?_, ?_⟩
  · obtain ⟨t, ms, run, taken, kept, served⟩ := State.transfer_aborts q h
    exact ⟨t, run, taken.entered, taken.cp15, taken.byteAt kept,
      (sameTestRegs_iff s t).2 (by rw [taken.memsys]; exact served.tests), taken.cp14⟩
  · obtain ⟨t, i, ms, run, taken, info, mem, wbuf⟩ := State.transfer_drawsError off ack h
    refine ⟨t, i.code, i.domain, run, taken.entered, by rw [taken.cp15, info.addr], ?_, by rw [taken.memsys, mem],
      by rw [taken.memsys, wbuf], taken.cp14⟩
    split
    · rename_i e entry
      exact info.mapped e entry
    · rename_i entry
      exact info.flat entry
  · obtain ⟨t, run, taken⟩ := store.aborts off ack stored goes aborted
    exact ⟨t, run, taken.entered, taken.cp15, taken.memsys, taken.cp14⟩
  · intro s c p up n wb rn crd cp off r rest passes dbgen ack attached debug system answers ready sound idx a opt x q
      member i aborted
    obtain ⟨ldc, stc⟩ := State.exec_coprocTransfer (n := n) (crd := crd) (off := off) passes attached debug system
      answers ready sound
    have base : State.coprocBase p up wb rn off { s with coproc := rest } = (a, x) := State.coprocBase_eq ..
    rw [base, coprocOption_eq] at ldc stc
    have written := State.withBase_eq { s with coproc := rest } rn (if wb then some idx else none)
    have quiet : x.pins = s.pins ∧ x.dbg = s.dbg := by
      rcases written with e | ⟨j, v, e⟩ <;> simp [x, e]
    obtain ⟨pins, dbg⟩ := quiet
    have ends : exec q.1 s = endTransfer q.2 ∧ x.SameRegisters q.2.2 ∧ ∀ j, q.2.1 = .abort j → j.dbg = false := by
      simp only [List.mem_cons, List.not_mem_nil, or_false] at member
      rcases member with rfl | rfl
      · exact ⟨ldc, State.loadCoproc_abort (by rw [pins]; exact dbgen) (by rw [dbg]; exact ack)⟩
      · exact ⟨stc, State.storeCoproc_abort (by rw [pins]; exact dbgen) (by rw [dbg]; exact ack)⟩
    obtain ⟨run, same, bus⟩ := ends
    obtain ⟨t, next, taken, calls⟩ := State.endTransfer_aborts written same (bus i aborted) aborted
    exact ⟨t, run.trans next, taken.entered, taken.cp15, taken.memsys, calls, taken.cp14⟩

end Sys2Proof.Machine
end

section
/-! # The fields of a word, and the formats of ARM words -/

-- One proof at a time: threads that wait for each other would fill the memory the check allows.
set_option Elab.async false

namespace Sys2Proof

/-! ## Fields -/

/-- The field of a word from a bit on is this one. -/
def FieldAt {l k : Nat} (w : BitVec l) (s : Nat) (x : BitVec k) : Prop := w.extractLsb' s k = x

theorem eq_iff_fieldAt {l : Nat} {x w : BitVec l} : x = w ↔ FieldAt w 0 x := by
  rw [FieldAt, BitVec.extractLsb'_eq_self, eq_comm]

/-- A concatenation is the field when its parts are the two fields. -/
theorem fieldAt_append {l m n s : Nat} {w : BitVec l} {x : BitVec m} {y : BitVec n} :
    FieldAt w s (x ++ y) ↔ FieldAt w (s + n) x ∧ FieldAt w s y := by
  unfold FieldAt
  rw [← extract_join w s m n]
  constructor
  · intro h
    have hi := congrArg (BitVec.extractLsb' n m) h
    have lo := congrArg (BitVec.extractLsb' 0 n) h
    simp only [extract_append_high _ _ n m (Nat.le_refl n), extract_append_low _ _ 0 n (Nat.zero_add n).le, Nat.sub_self,
      BitVec.extractLsb'_eq_self] at hi lo
    exact ⟨hi, lo⟩
  · rintro ⟨rfl, rfl⟩
    rfl

/-- A field of a field whose value is known. -/
theorem extract_of_extract {w s m : Nat} {x : BitVec w} {v : BitVec m} (h : x.extractLsb' s m = v) (t n : Nat)
    (le : t + n ≤ m := by omega) : x.extractLsb' (s + t) n = v.extractLsb' t n := by
  rw [← h, extract_extract _ _ _ _ _ le]

/-- Two adjacent fields whose values are known. -/
theorem extract_of_fields {w s m n : Nat} {x : BitVec w} {a : BitVec m} {b : BitVec n}
    (hi : x.extractLsb' (s + n) m = a) (lo : x.extractLsb' s n = b) : x.extractLsb' s (m + n) = a ++ b :=
  fieldAt_append.2 ⟨hi, lo⟩

theorem arm_eq_iff_fieldAt {v w : Word} : Code.arm v = .arm w ↔ FieldAt w 0 v :=
  (Code.arm.injEq v w).to_iff.trans eq_iff_fieldAt

theorem bitAt_eq_iff {l s : Nat} {w : BitVec l} {b : Bool} : bitAt w s = b ↔ w.extractLsb' s 1 = flagBit b := by
  rw [← flagBit_bitAt]
  cases bitAt w s <;> cases b <;> decide

/-! ## The formats of ARM words, by their fields (R180) -/

section
variable {c : Cond} {w : Word}

theorem encodeDataProc_iff {op : BitVec 4} {sf : Bool} {rn rd : Reg} {op2 : Operand2} :
    encodeDataProc c op sf rn rd op2 = w ↔
      w.extractLsb' 28 4 = c.bits ∧ w.extractLsb' 26 2 = 0#2 ∧ w.extractLsb' 25 1 = op2.immediateBit ∧
        w.extractLsb' 21 4 = op ∧ w.extractLsb' 20 1 = flagBit sf ∧ w.extractLsb' 16 4 = rn ∧
        w.extractLsb' 12 4 = rd ∧ w.extractLsb' 0 12 = op2.field := by
  rw [eq_iff_fieldAt]
  simp only [encodeDataProc, fieldAt_append, and_assoc]
  exact Iff.rfl

theorem encodeMultiply_iff {op : BitVec 7} {sf : Bool} {hi lo rs rm : Reg} :
    encodeMultiply c op sf hi lo rs rm = w ↔
      w.extractLsb' 28 4 = c.bits ∧ w.extractLsb' 21 7 = op ∧ w.extractLsb' 20 1 = flagBit sf ∧
        w.extractLsb' 16 4 = hi ∧ w.extractLsb' 12 4 = lo ∧ w.extractLsb' 8 4 = rs ∧
        w.extractLsb' 4 4 = 9#4 ∧ w.extractLsb' 0 4 = rm := by
  rw [eq_iff_fieldAt]
  simp only [encodeMultiply, fieldAt_append, and_assoc]
  exact Iff.rfl

theorem encodeSwap_iff {byte : Bool} {rn rd rm : Reg} :
    encodeSwap c byte rn rd rm = w ↔
      w.extractLsb' 28 4 = c.bits ∧ w.extractLsb' 23 5 = 2#5 ∧ w.extractLsb' 22 1 = flagBit byte ∧
        w.extractLsb' 20 2 = 0#2 ∧ w.extractLsb' 16 4 = rn ∧ w.extractLsb' 12 4 = rd ∧ w.extractLsb' 8 4 = 0#4 ∧
        w.extractLsb' 4 4 = 9#4 ∧ w.extractLsb' 0 4 = rm := by
  rw [eq_iff_fieldAt]
  simp only [encodeSwap, fieldAt_append, and_assoc]
  exact Iff.rfl

theorem encodeHalfword_iff {index : Index} {up : Bool} {l : BitVec 1} {sh : BitVec 2} {rn rd : Reg} {off : Offset3} :
    encodeHalfword c index up l sh rn rd off = w ↔
      w.extractLsb' 28 4 = c.bits ∧ w.extractLsb' 25 3 = 0#3 ∧ w.extractLsb' 24 1 = index.p ∧
        w.extractLsb' 23 1 = flagBit up ∧ w.extractLsb' 22 1 = off.immediateBit ∧ w.extractLsb' 21 1 = index.w ∧
        w.extractLsb' 20 1 = l ∧ w.extractLsb' 16 4 = rn ∧ w.extractLsb' 12 4 = rd ∧ w.extractLsb' 8 4 = off.high ∧
        w.extractLsb' 7 1 = 1#1 ∧ w.extractLsb' 5 2 = sh ∧ w.extractLsb' 4 1 = 1#1 ∧ w.extractLsb' 0 4 = off.low := by
  rw [eq_iff_fieldAt]
  simp only [encodeHalfword, fieldAt_append, and_assoc]
  exact Iff.rfl

theorem shiftImm_field_iff {sh : ShiftType} {amount : BitVec 5} {rm : Reg} :
    w.extractLsb' 0 12 = (Operand2.shiftImm sh amount rm).field ↔
      w.extractLsb' 7 5 = amount ∧ w.extractLsb' 5 2 = sh.bits ∧ w.extractLsb' 4 1 = 0#1 ∧ w.extractLsb' 0 4 = rm := by
  show FieldAt w 0 (amount ++ sh.bits ++ 0#1 ++ rm) ↔ _
  simp only [fieldAt_append, and_assoc]
  exact Iff.rfl

theorem shiftReg_field_iff {sh : ShiftType} {rs rm : Reg} :
    w.extractLsb' 0 12 = (Operand2.shiftReg sh rs rm).field ↔
      w.extractLsb' 8 4 = rs ∧ w.extractLsb' 7 1 = 0#1 ∧ w.extractLsb' 5 2 = sh.bits ∧ w.extractLsb' 4 1 = 1#1 ∧
        w.extractLsb' 0 4 = rm := by
  show FieldAt w 0 (rs ++ 0#1 ++ sh.bits ++ 1#1 ++ rm) ↔ _
  simp only [fieldAt_append, and_assoc]
  exact Iff.rfl

theorem imm_field_iff {rotate : BitVec 4} {imm8 : BitVec 8} :
    w.extractLsb' 0 12 = (Operand2.imm rotate imm8).field ↔
      w.extractLsb' 8 4 = rotate ∧ w.extractLsb' 0 8 = imm8 :=
  fieldAt_append (w := w) (s := 0) (x := rotate) (y := imm8)

theorem encodeTransfer_iff {p b wb l : BitVec 1} {up : Bool} {rn rd : Reg} {off : Offset2} :
    encodeTransfer c p up b wb l rn rd off = w ↔
      w.extractLsb' 28 4 = c.bits ∧ w.extractLsb' 26 2 = 1#2 ∧ w.extractLsb' 25 1 = off.registerBit ∧
        w.extractLsb' 24 1 = p ∧ w.extractLsb' 23 1 = flagBit up ∧ w.extractLsb' 22 1 = b ∧ w.extractLsb' 21 1 = wb ∧
        w.extractLsb' 20 1 = l ∧ w.extractLsb' 16 4 = rn ∧ w.extractLsb' 12 4 = rd ∧ w.extractLsb' 0 12 = off.field := by
  rw [eq_iff_fieldAt]
  simp only [encodeTransfer, fieldAt_append, and_assoc]
  exact Iff.rfl

theorem reg_field_iff {sh : ShiftType} {amount : BitVec 5} {rm : Reg} :
    w.extractLsb' 0 12 = (Offset2.reg sh amount rm).field ↔
      w.extractLsb' 7 5 = amount ∧ w.extractLsb' 5 2 = sh.bits ∧ w.extractLsb' 4 1 = 0#1 ∧ w.extractLsb' 0 4 = rm :=
  shiftImm_field_iff

theorem encodeBlock_iff {pu : BitVec 2} {sf wb : Bool} {l : BitVec 1} {rn : Reg} {list : BitVec 16} :
    encodeBlock c pu sf wb l rn list = w ↔
      w.extractLsb' 28 4 = c.bits ∧ w.extractLsb' 25 3 = 4#3 ∧ w.extractLsb' 23 2 = pu ∧
        w.extractLsb' 22 1 = flagBit sf ∧ w.extractLsb' 21 1 = flagBit wb ∧ w.extractLsb' 20 1 = l ∧
        w.extractLsb' 16 4 = rn ∧ w.extractLsb' 0 16 = list := by
  rw [eq_iff_fieldAt]
  simp only [encodeBlock, fieldAt_append, and_assoc]
  exact Iff.rfl

theorem encodeCoprocTransfer_iff {p up n wb : Bool} {l : BitVec 1} {rn : Reg} {crd cp : BitVec 4} {off : BitVec 8} :
    encodeCoprocTransfer c p up n wb l rn crd cp off = w ↔
      w.extractLsb' 28 4 = c.bits ∧ w.extractLsb' 25 3 = 6#3 ∧ w.extractLsb' 24 1 = flagBit p ∧
        w.extractLsb' 23 1 = flagBit up ∧ w.extractLsb' 22 1 = flagBit n ∧ w.extractLsb' 21 1 = flagBit wb ∧
        w.extractLsb' 20 1 = l ∧ w.extractLsb' 16 4 = rn ∧ w.extractLsb' 12 4 = crd ∧ w.extractLsb' 8 4 = cp ∧
        w.extractLsb' 0 8 = off := by
  rw [eq_iff_fieldAt]
  simp only [encodeCoprocTransfer, fieldAt_append, and_assoc]
  exact Iff.rfl

theorem encodeCoprocRegister_iff {op1 : BitVec 3} {l : BitVec 1} {crn rd cp : BitVec 4} {op2 : BitVec 3}
    {crm : BitVec 4} :
    encodeCoprocRegister c op1 l crn rd cp op2 crm = w ↔
      w.extractLsb' 28 4 = c.bits ∧ w.extractLsb' 24 4 = 14#4 ∧ w.extractLsb' 21 3 = op1 ∧ w.extractLsb' 20 1 = l ∧
        w.extractLsb' 16 4 = crn ∧ w.extractLsb' 12 4 = rd ∧ w.extractLsb' 8 4 = cp ∧ w.extractLsb' 5 3 = op2 ∧
        w.extractLsb' 4 1 = 1#1 ∧ w.extractLsb' 0 4 = crm := by
  rw [eq_iff_fieldAt]
  simp only [encodeCoprocRegister, fieldAt_append, and_assoc]
  exact Iff.rfl

theorem armCdp_iff {op1 crn crd cp : BitVec 4} {op2 : BitVec 3} {crm : BitVec 4} :
    encode (.armCdp c op1 crn crd cp op2 crm) = .arm w ↔
      w.extractLsb' 28 4 = c.bits ∧ w.extractLsb' 24 4 = 14#4 ∧ w.extractLsb' 20 4 = op1 ∧
        w.extractLsb' 16 4 = crn ∧ w.extractLsb' 12 4 = crd ∧ w.extractLsb' 8 4 = cp ∧ w.extractLsb' 5 3 = op2 ∧
        w.extractLsb' 4 1 = 0#1 ∧ w.extractLsb' 0 4 = crm := by
  refine arm_eq_iff_fieldAt.trans ?_
  simp only [fieldAt_append, and_assoc]
  exact Iff.rfl

theorem armSwi_iff {imm : BitVec 24} :
    encode (.armSwi c imm) = .arm w ↔
      w.extractLsb' 28 4 = c.bits ∧ w.extractLsb' 24 4 = 15#4 ∧ w.extractLsb' 0 24 = imm := by
  refine arm_eq_iff_fieldAt.trans ?_
  simp only [fieldAt_append, and_assoc]
  exact Iff.rfl

theorem armB_iff {offset : BitVec 24} :
    encode (.armB c offset) = .arm w ↔
      w.extractLsb' 28 4 = c.bits ∧ w.extractLsb' 24 4 = 10#4 ∧ w.extractLsb' 0 24 = offset := by
  refine arm_eq_iff_fieldAt.trans ?_
  simp only [fieldAt_append, and_assoc]
  exact Iff.rfl

theorem armBl_iff {offset : BitVec 24} :
    encode (.armBl c offset) = .arm w ↔
      w.extractLsb' 28 4 = c.bits ∧ w.extractLsb' 24 4 = 11#4 ∧ w.extractLsb' 0 24 = offset := by
  refine arm_eq_iff_fieldAt.trans ?_
  simp only [fieldAt_append, and_assoc]
  exact Iff.rfl

theorem armBx_iff {rm : Reg} :
    encode (.armBx c rm) = .arm w ↔
      w.extractLsb' 28 4 = c.bits ∧ w.extractLsb' 4 24 = 0x12fff1#24 ∧ w.extractLsb' 0 4 = rm := by
  refine arm_eq_iff_fieldAt.trans ?_
  simp only [fieldAt_append, and_assoc]
  exact Iff.rfl

theorem armMrs_iff {spsr : Bool} {rd : Reg} :
    encode (.armMrs c spsr rd) = .arm w ↔
      w.extractLsb' 28 4 = c.bits ∧ w.extractLsb' 23 5 = 2#5 ∧ w.extractLsb' 22 1 = flagBit spsr ∧
        w.extractLsb' 20 2 = 0#2 ∧ w.extractLsb' 16 4 = 15#4 ∧ w.extractLsb' 12 4 = rd ∧
        w.extractLsb' 0 12 = 0#12 := by
  refine arm_eq_iff_fieldAt.trans ?_
  simp only [fieldAt_append, and_assoc]
  exact Iff.rfl

theorem armMsrReg_iff {spsr : Bool} {mask : BitVec 4} {rm : Reg} :
    encode (.armMsrReg c spsr mask rm) = .arm w ↔
      w.extractLsb' 28 4 = c.bits ∧ w.extractLsb' 23 5 = 2#5 ∧ w.extractLsb' 22 1 = flagBit spsr ∧
        w.extractLsb' 20 2 = 2#2 ∧ w.extractLsb' 16 4 = mask ∧ w.extractLsb' 12 4 = 15#4 ∧
        w.extractLsb' 4 8 = 0#8 ∧ w.extractLsb' 0 4 = rm := by
  refine arm_eq_iff_fieldAt.trans ?_
  simp only [fieldAt_append, and_assoc]
  exact Iff.rfl

theorem armMsrImm_iff {spsr : Bool} {mask rotate : BitVec 4} {imm8 : BitVec 8} :
    encode (.armMsrImm c spsr mask rotate imm8) = .arm w ↔
      w.extractLsb' 28 4 = c.bits ∧ w.extractLsb' 23 5 = 6#5 ∧ w.extractLsb' 22 1 = flagBit spsr ∧
        w.extractLsb' 20 2 = 2#2 ∧ w.extractLsb' 16 4 = mask ∧ w.extractLsb' 12 4 = 15#4 ∧
        w.extractLsb' 8 4 = rotate ∧ w.extractLsb' 0 8 = imm8 := by
  refine arm_eq_iff_fieldAt.trans ?_
  simp only [fieldAt_append, and_assoc]
  exact Iff.rfl

theorem armUndefMsr_iff {r : Bool} {lo : BitVec 20} :
    encode (.armUndefMsr c r lo) = .arm w ↔
      w.extractLsb' 28 4 = c.bits ∧ w.extractLsb' 23 5 = 6#5 ∧ w.extractLsb' 22 1 = flagBit r ∧
        w.extractLsb' 20 2 = 0#2 ∧ w.extractLsb' 0 20 = lo := by
  refine arm_eq_iff_fieldAt.trans ?_
  simp only [fieldAt_append, and_assoc]
  exact Iff.rfl

theorem armUndefMedia_iff {hi : BitVec 20} {lo : BitVec 4} :
    encode (.armUndefMedia c hi lo) = .arm w ↔
      w.extractLsb' 28 4 = c.bits ∧ w.extractLsb' 25 3 = 3#3 ∧ w.extractLsb' 5 20 = hi ∧ w.extractLsb' 4 1 = 1#1 ∧
        w.extractLsb' 0 4 = lo := by
  refine arm_eq_iff_fieldAt.trans ?_
  simp only [fieldAt_append, and_assoc]
  exact Iff.rfl

end

end Sys2Proof
end

section
/-! # The ARM decoder finds every instruction in its word (R180, R184) -/

-- One proof at a time: threads that wait for each other would fill the memory the check allows.
set_option Elab.async false

namespace Sys2Proof

section
variable {c : Cond} {w : Word}

theorem decodeArm_encodeDataProc {op : BitVec 4} {sf : Bool} {rn rd : Reg} {op2 : Operand2}
    (h : encodeDataProc c op sf rn rd op2 = w) (test : op.extractLsb' 2 2 = 2#2 → sf = true) :
    decodeArm w = decodeDataProc c op sf rn rd op2 := by
  obtain ⟨cond, form, immediate, opcode, flags, first, dest, field⟩ := encodeDataProc_iff.1 h
  have group : w.extractLsb' 23 2 = op.extractLsb' 2 2 := extract_of_extract opcode 2 2
  have kind : w.extractLsb' 25 3 = 0#2 ++ op2.immediateBit := extract_of_fields form immediate
  have control : ¬ (op.extractLsb' 2 2 = 2#2 ∧ sf = false) := fun ⟨x, y⟩ => by simp [test x] at y
  rw [← bitAt_eq_iff] at flags
  cases op2 with
  | imm rotate imm8 =>
    obtain ⟨rot, imm⟩ := imm_field_iff.1 field
    simp [decodeArm, decodeImmediateForms, *, Operand2.immediateBit]
  | shiftImm sh amount rm =>
    obtain ⟨amt, shift, reg, rm⟩ := shiftImm_field_iff.1 field
    have reg := bitAt_eq_iff (b := false).2 reg
    simp [decodeArm, decodeRegisterForms, *, Operand2.immediateBit]
  | shiftReg sh rs rm =>
    obtain ⟨rs, high, shift, reg, rm⟩ := shiftReg_field_iff.1 field
    have reg := bitAt_eq_iff (b := true).2 reg
    have high := bitAt_eq_iff (b := false).2 high
    simp [decodeArm, decodeRegisterForms, *, Operand2.immediateBit]

/-- Words with bits [27:25] clear and bits [7:4] = 1001 are the multiplies' and the swaps'. -/
theorem decodeArm_multiplySpace (cond : w.extractLsb' 28 4 = c.bits) (kind : w.extractLsb' 25 3 = 0#3)
    (low : w.extractLsb' 4 4 = 9#4) : decodeArm w = decodeMultiply c w := by
  have bit7 : bitAt w 7 = true := bitAt_eq_iff.2 (extract_of_extract low 3 1)
  have bit4 : bitAt w 4 = true := bitAt_eq_iff.2 (extract_of_extract low 0 1)
  have shift : w.extractLsb' 5 2 = 0#2 := extract_of_extract low 1 2
  simp [decodeArm, decodeRegisterForms, *]

theorem decodeArm_encodeMultiply {op : BitVec 7} {sf : Bool} {hi lo rs rm : Reg}
    (h : encodeMultiply c op sf hi lo rs rm = w) :
    (op = 0#7 → lo = 0 → decodeArm w = .ok (.armMul c sf hi rs rm)) ∧
    (op = 1#7 → decodeArm w = .ok (.armMla c sf hi lo rs rm)) ∧
    (op = 4#7 → decodeArm w = .ok (.armUmull c sf hi lo rs rm)) ∧
    (op = 5#7 → decodeArm w = .ok (.armUmlal c sf hi lo rs rm)) ∧
    (op = 6#7 → decodeArm w = .ok (.armSmull c sf hi lo rs rm)) ∧
    (op = 7#7 → decodeArm w = .ok (.armSmlal c sf hi lo rs rm)) := by
  obtain ⟨cond, opcode, flags, hi, lo, rs, low, rm⟩ := encodeMultiply_iff.1 h
  have kind : w.extractLsb' 25 3 = op.extractLsb' 4 3 := extract_of_extract opcode 4 3
  have size : w.extractLsb' 22 3 = op.extractLsb' 1 3 := extract_of_extract opcode 1 3
  have long : w.extractLsb' 23 2 = op.extractLsb' 2 2 := extract_of_extract opcode 2 2
  have form : w.extractLsb' 21 2 = op.extractLsb' 0 2 := extract_of_extract opcode 0 2
  have acc : w.extractLsb' 21 1 = op.extractLsb' 0 1 := extract_of_extract opcode 0 1
  have space (z : op.extractLsb' 4 3 = 0#3) : decodeArm w = decodeMultiply c w :=
    decodeArm_multiplySpace cond (kind.trans z) low
  refine ⟨?_, ?_, ?_, ?_, ?_, ?_⟩ <;> rintro rfl <;> simp +contextual [decodeMultiply, bitAt, *]

theorem decodeArm_encodeSwap {byte : Bool} {rn rd rm : Reg} (h : encodeSwap c byte rn rd rm = w) :
    decodeArm w = .ok (if byte then .armSwpb c rn rd rm else .armSwp c rn rd rm) := by
  obtain ⟨cond, form, size, zero, rn, rd, rs, low, rm⟩ := encodeSwap_iff.1 h
  have kind : w.extractLsb' 25 3 = 0#3 := extract_of_extract form 2 3
  have long : w.extractLsb' 23 2 = 2#2 := extract_of_extract form 0 2
  have mul : w.extractLsb' 22 3 = 2#2 ++ flagBit byte := extract_of_fields long size
  rw [decodeArm_multiplySpace cond kind low]
  cases byte <;> simp [decodeMultiply, bitAt, *, flagBit]

/-- P and W of the addressing modes (R189, R190), as the decoder reads them. -/
theorem index_fields_iff {index : Index} :
    w.extractLsb' 24 1 = index.p ∧ w.extractLsb' 21 1 = index.w ↔
      indexOf (bitAt w 24) (bitAt w 21) = index ∧ ¬ (bitAt w 24 = false ∧ bitAt w 21 = true) := by
  rw [← flagBit_bitAt, ← flagBit_bitAt]
  generalize bitAt w 24 = p
  generalize bitAt w 21 = wb
  revert p wb
  cases index <;> decide

/-- The offset of addressing mode 3 (R190), as the decoder reads it. -/
theorem offset3_fields_iff {off : Offset3} :
    w.extractLsb' 22 1 = off.immediateBit ∧ w.extractLsb' 8 4 = off.high ∧ w.extractLsb' 0 4 = off.low ↔
      (if bitAt w 22 then .imm (w.extractLsb' 8 4 ++ w.extractLsb' 0 4) else .reg (w.extractLsb' 0 4)) = off ∧
        ¬ (bitAt w 22 = false ∧ w.extractLsb' 8 4 ≠ 0#4) := by
  rw [← flagBit_bitAt]
  cases off with
  | imm imm8 =>
    have join : w.extractLsb' 8 4 ++ w.extractLsb' 0 4 = imm8 ↔
        w.extractLsb' 8 4 = imm8.extractLsb' 4 4 ∧ w.extractLsb' 0 4 = imm8.extractLsb' 0 4 := by
      rw [eq_iff_fieldAt, fieldAt_append]
      exact and_congr eq_comm eq_comm
    cases bitAt w 22 <;> simp [Offset3.immediateBit, Offset3.high, Offset3.low, flagBit, join]
  | reg rm => cases bitAt w 22 <;> simp [Offset3.immediateBit, Offset3.high, Offset3.low, flagBit, and_comm]

theorem decodeArm_encodeHalfword {index : Index} {up : Bool} {l : BitVec 1} {sh : BitVec 2} {rn rd : Reg} {off : Offset3}
    (h : encodeHalfword c index up l sh rn rd off = w) :
    (l = 0#1 → sh = 1#2 → decodeArm w = .ok (.armStrh c index up rn rd off)) ∧
    (l = 1#1 → sh = 1#2 → decodeArm w = .ok (.armLdrh c index up rn rd off)) ∧
    (l = 1#1 → sh = 2#2 → decodeArm w = .ok (.armLdrsb c index up rn rd off)) ∧
    (l = 1#1 → sh = 3#2 → decodeArm w = .ok (.armLdrsh c index up rn rd off)) := by
  obtain ⟨cond, kind, p, up, imm, wb, load, rn, rd, high, bit7, shift, bit4, low⟩ := encodeHalfword_iff.1 h
  have space (z : sh ≠ 0#2) : decodeArm w = decodeHalfword c w := by
    simp [decodeArm, decodeRegisterForms, bitAt, cond, kind, bit7, bit4, shift, z]
  obtain ⟨rfl, post⟩ := index_fields_iff.1 ⟨p, wb⟩
  obtain ⟨rfl, sbz⟩ := offset3_fields_iff.1 ⟨imm, high, low⟩
  rw [← bitAt_eq_iff] at up
  have load (b : Bool) (e : l = flagBit b) : bitAt w 20 = b := bitAt_eq_iff.2 (load.trans e)
  refine ⟨?_, ?_, ?_, ?_⟩ <;> rintro rfl rfl <;> rw [space (by decide), decodeHalfword]
  · simp [load false rfl, post, sbz, shift, up, rn, rd]
  all_goals simp [load true rfl, post, sbz, shift, up, rn, rd]

/-- Words of addressing mode 2 (R189), whose offset says which of the two classes. -/
theorem decodeArm_transferSpace {off : Offset2} (cond : w.extractLsb' 28 4 = c.bits) (form : w.extractLsb' 26 2 = 1#2)
    (register : w.extractLsb' 25 1 = off.registerBit) (field : w.extractLsb' 0 12 = off.field) :
    decodeArm w = .ok (decodeTransfer c w off) := by
  have kind : w.extractLsb' 25 3 = 1#2 ++ off.registerBit := extract_of_fields form register
  cases off with
  | imm imm12 =>
    have field : w.extractLsb' 0 12 = imm12 := field
    simp [decodeArm, cond, kind, field, Offset2.registerBit]
  | reg sh amount rm =>
    obtain ⟨amt, shift, reg, rm⟩ := reg_field_iff.1 field
    have reg := bitAt_eq_iff (b := false).2 reg
    simp [decodeArm, *, Offset2.registerBit]

theorem decodeArm_encodeTransfer {index : Index} {b l : Bool} {up : Bool} {rn rd : Reg} {off : Offset2}
    (h : encodeTransfer c index.p up (flagBit b) index.w (flagBit l) rn rd off = w) :
    decodeArm w = .ok (if b then (if l then .armLdrb c index up rn rd off else .armStrb c index up rn rd off)
      else if l then .armLdr c index up rn rd off else .armStr c index up rn rd off) := by
  obtain ⟨cond, form, register, p, up, byte, wb, load, rn, rd, field⟩ := encodeTransfer_iff.1 h
  obtain ⟨rfl, post⟩ := index_fields_iff.1 ⟨p, wb⟩
  rw [← bitAt_eq_iff] at up byte load
  simp [decodeArm_transferSpace cond form register field, decodeTransfer, post, up, byte, load, rn, rd]

theorem decodeArm_encodeTransferT {b l : Bool} {up : Bool} {rn rd : Reg} {off : Offset2}
    (h : encodeTransfer c 0 up (flagBit b) 1 (flagBit l) rn rd off = w) :
    decodeArm w = .ok (if b then (if l then .armLdrbt c up rn rd off else .armStrbt c up rn rd off)
      else if l then .armLdrt c up rn rd off else .armStrt c up rn rd off) := by
  obtain ⟨cond, form, register, p, up, byte, wb, load, rn, rd, field⟩ := encodeTransfer_iff.1 h
  have p := bitAt_eq_iff (b := false).2 p
  have wb := bitAt_eq_iff (b := true).2 wb
  rw [← bitAt_eq_iff] at up byte load
  simp [decodeArm_transferSpace cond form register field, decodeTransfer, p, wb, up, byte, load, rn, rd]

theorem twoBits_cases : ∀ x : BitVec 2, x = 0#2 ∨ x = 1#2 ∨ x = 2#2 ∨ x = 3#2 := by decide

theorem decodeArm_encodeBlock {pu : BitVec 2} {sf wb : Bool} {l : Bool} {rn : Reg} {list : BitVec 16}
    (h : encodeBlock c pu sf wb (flagBit l) rn list = w) :
    decodeArm w = .ok (if l then
        (if pu = 1 then .armLdmia c sf wb rn list else if pu = 3 then .armLdmib c sf wb rn list
          else if pu = 0 then .armLdmda c sf wb rn list else .armLdmdb c sf wb rn list)
      else if pu = 1 then .armStmia c sf wb rn list else if pu = 3 then .armStmib c sf wb rn list
          else if pu = 0 then .armStmda c sf wb rn list else .armStmdb c sf wb rn list) := by
  obtain ⟨cond, kind, mode, sf, wb, load, rn, list⟩ := encodeBlock_iff.1 h
  rw [← bitAt_eq_iff] at sf wb load
  rcases twoBits_cases pu with rfl | rfl | rfl | rfl <;> simp [decodeArm, decodeBlock, *]

theorem decodeArm_encodeCoprocTransfer {p up n wb l : Bool} {rn : Reg} {crd cp : BitVec 4} {off : BitVec 8}
    (h : encodeCoprocTransfer c p up n wb (flagBit l) rn crd cp off = w) :
    decodeArm w = .ok (if l then .armLdc c p up n wb rn crd cp off else .armStc c p up n wb rn crd cp off) := by
  obtain ⟨cond, kind, p, up, n, wb, load, rn, crd, cp, off⟩ := encodeCoprocTransfer_iff.1 h
  rw [← bitAt_eq_iff] at p up n wb load
  simp [decodeArm, decodeCoprocTransfer, *]

/-- Words with bits [27:25] set are CDP's, MCR's, MRC's and SWI's. -/
theorem decodeArm_coprocSpace {top : BitVec 4} (cond : w.extractLsb' 28 4 = c.bits) (form : w.extractLsb' 24 4 = top)
    (kind : top.extractLsb' 1 3 = 7#3) : decodeArm w = .ok (decodeCoproc c w) := by
  have kind : w.extractLsb' 25 3 = 7#3 := (extract_of_extract form 1 3).trans kind
  simp [decodeArm, cond, kind]

theorem decodeArm_encodeCoprocRegister {op1 : BitVec 3} {l : Bool} {crn rd cp : BitVec 4} {op2 : BitVec 3}
    {crm : BitVec 4} (h : encodeCoprocRegister c op1 (flagBit l) crn rd cp op2 crm = w) :
    decodeArm w = .ok (if l then .armMrc c op1 crn rd cp op2 crm else .armMcr c op1 crn rd cp op2 crm) := by
  obtain ⟨cond, form, op1, load, crn, rd, cp, op2, reg, crm⟩ := encodeCoprocRegister_iff.1 h
  have swi : bitAt w 24 = false := bitAt_eq_iff.2 (extract_of_extract form 0 1)
  have reg := bitAt_eq_iff (b := true).2 reg
  rw [← bitAt_eq_iff] at load
  simp [decodeArm_coprocSpace cond form (by decide), decodeCoproc, *]

theorem decodeArm_armCdp {op1 crn crd cp : BitVec 4} {op2 : BitVec 3} {crm : BitVec 4}
    (h : encode (.armCdp c op1 crn crd cp op2 crm) = .arm w) : decodeArm w = .ok (.armCdp c op1 crn crd cp op2 crm) := by
  obtain ⟨cond, form, op1, crn, crd, cp, op2, reg, crm⟩ := armCdp_iff.1 h
  have swi : bitAt w 24 = false := bitAt_eq_iff.2 (extract_of_extract form 0 1)
  have reg := bitAt_eq_iff (b := false).2 reg
  simp [decodeArm_coprocSpace cond form (by decide), decodeCoproc, *]

theorem decodeArm_armSwi {imm : BitVec 24} (h : encode (.armSwi c imm) = .arm w) :
    decodeArm w = .ok (.armSwi c imm) := by
  obtain ⟨cond, form, imm⟩ := armSwi_iff.1 h
  have swi : bitAt w 24 = true := bitAt_eq_iff.2 (extract_of_extract form 0 1)
  simp [decodeArm_coprocSpace cond form (by decide), decodeCoproc, swi, imm]

theorem decodeArm_armB {offset : BitVec 24} (h : encode (.armB c offset) = .arm w) :
    decodeArm w = .ok (.armB c offset) := by
  obtain ⟨cond, form, imm⟩ := armB_iff.1 h
  have kind : w.extractLsb' 25 3 = 5#3 := extract_of_extract form 1 3
  have link : bitAt w 24 = false := bitAt_eq_iff.2 (extract_of_extract form 0 1)
  simp [decodeArm, cond, kind, link, imm]

theorem decodeArm_armBl {offset : BitVec 24} (h : encode (.armBl c offset) = .arm w) :
    decodeArm w = .ok (.armBl c offset) := by
  obtain ⟨cond, form, imm⟩ := armBl_iff.1 h
  have kind : w.extractLsb' 25 3 = 5#3 := extract_of_extract form 1 3
  have link : bitAt w 24 = true := bitAt_eq_iff.2 (extract_of_extract form 0 1)
  simp [decodeArm, cond, kind, link, imm]

/-- Words with bits [27:23] = 00010, S = 0 and bit 7 or bit 4 clear are the control space (R184). -/
theorem decodeArm_controlSpace (cond : w.extractLsb' 28 4 = c.bits) (form : w.extractLsb' 23 5 = 2#5)
    (flags : bitAt w 20 = false) (low : ¬ (bitAt w 7 = true ∧ bitAt w 4 = true)) : decodeArm w = decodeControl c w := by
  have kind : w.extractLsb' 25 3 = 0#3 := extract_of_extract form 2 3
  have group : w.extractLsb' 23 2 = 2#2 := extract_of_extract form 0 2
  simp [decodeArm, decodeRegisterForms, cond, kind, group, flags, low]

theorem decodeArm_armBx {rm : Reg} (h : encode (.armBx c rm) = .arm w) : decodeArm w = .ok (.armBx c rm) := by
  obtain ⟨cond, form, rm⟩ := armBx_iff.1 h
  have bit7 : bitAt w 7 = false := bitAt_eq_iff.2 (extract_of_extract form 3 1)
  have flags : bitAt w 20 = false := bitAt_eq_iff.2 (extract_of_extract form 16 1)
  have bx : w.extractLsb' 4 19 = 0x2fff1#19 := extract_of_extract form 0 19
  rw [decodeArm_controlSpace cond (extract_of_extract form 19 5) flags (by simp [bit7]), decodeControl,
    if_pos bx, rm]

/-- A word with another value in part of BX's fixed field is no BX. -/
theorem ne_bx {s m : Nat} {v : BitVec m} (field : w.extractLsb' (4 + s) m = v) (le : s + m ≤ 19)
    (ne : v ≠ (0x2fff1#19).extractLsb' s m) : w.extractLsb' 4 19 ≠ 0x2fff1#19 := fun bx =>
  ne (field.symm.trans (extract_of_extract bx s m le))

theorem decodeArm_armMrs {spsr : Bool} {rd : Reg} (h : encode (.armMrs c spsr rd) = .arm w) :
    decodeArm w = .ok (.armMrs c spsr rd) := by
  obtain ⟨cond, form, spsr, zero, ones, rd, low⟩ := armMrs_iff.1 h
  have bit7 : bitAt w 7 = false := bitAt_eq_iff.2 (extract_of_extract low 7 1)
  have flags : bitAt w 20 = false := bitAt_eq_iff.2 (extract_of_extract zero 0 1)
  have read : bitAt w 21 = false := bitAt_eq_iff.2 (extract_of_extract zero 1 1)
  have bx : w.extractLsb' 4 19 ≠ 0x2fff1#19 := ne_bx (s := 16) zero (by decide) (by decide)
  rw [← bitAt_eq_iff] at spsr
  simp [decodeArm_controlSpace cond form flags (by simp [bit7]), decodeControl, *]

theorem decodeArm_armMsrReg {spsr : Bool} {mask : BitVec 4} {rm : Reg}
    (h : encode (.armMsrReg c spsr mask rm) = .arm w) : decodeArm w = .ok (.armMsrReg c spsr mask rm) := by
  obtain ⟨cond, form, spsr, one, mask, ones, low, rm⟩ := armMsrReg_iff.1 h
  have bit7 : bitAt w 7 = false := bitAt_eq_iff.2 (extract_of_extract low 3 1)
  have flags : bitAt w 20 = false := bitAt_eq_iff.2 (extract_of_extract one 0 1)
  have write : bitAt w 21 = true := bitAt_eq_iff.2 (extract_of_extract one 1 1)
  have bx : w.extractLsb' 4 19 ≠ 0x2fff1#19 := ne_bx (s := 0) low (by decide) (by decide)
  have fixed : w.extractLsb' 4 12 = 15#4 ++ 0#8 := extract_of_fields ones low
  rw [← bitAt_eq_iff] at spsr
  simp [decodeArm_controlSpace cond form flags (by simp [bit7]), decodeControl, *]

theorem decodeArm_immediateSpace (cond : w.extractLsb' 28 4 = c.bits) (form : w.extractLsb' 23 5 = 6#5) :
    decodeArm w = decodeImmediateForms c w ∧ w.extractLsb' 23 2 = 2#2 := by
  have kind : w.extractLsb' 25 3 = 1#3 := extract_of_extract form 2 3
  exact ⟨by simp [decodeArm, cond, kind], extract_of_extract form 0 2⟩

theorem decodeArm_armMsrImm {spsr : Bool} {mask rotate : BitVec 4} {imm8 : BitVec 8}
    (h : encode (.armMsrImm c spsr mask rotate imm8) = .arm w) :
    decodeArm w = .ok (.armMsrImm c spsr mask rotate imm8) := by
  obtain ⟨cond, form, spsr, one, mask, ones, rotate, imm8⟩ := armMsrImm_iff.1 h
  obtain ⟨space, group⟩ := decodeArm_immediateSpace cond form
  have flags : bitAt w 20 = false := bitAt_eq_iff.2 (extract_of_extract one 0 1)
  have write : bitAt w 21 = true := bitAt_eq_iff.2 (extract_of_extract one 1 1)
  rw [← bitAt_eq_iff] at spsr
  simp [decodeImmediateForms, *]

theorem decodeArm_armUndefMsr {r : Bool} {lo : BitVec 20} (h : encode (.armUndefMsr c r lo) = .arm w) :
    decodeArm w = .ok (.armUndefMsr c r lo) := by
  obtain ⟨cond, form, r, zero, lo⟩ := armUndefMsr_iff.1 h
  obtain ⟨space, group⟩ := decodeArm_immediateSpace cond form
  have flags : bitAt w 20 = false := bitAt_eq_iff.2 (extract_of_extract zero 0 1)
  have read : bitAt w 21 = false := bitAt_eq_iff.2 (extract_of_extract zero 1 1)
  rw [← bitAt_eq_iff] at r
  simp [decodeImmediateForms, *]

theorem decodeArm_armUndefMedia {hi : BitVec 20} {lo : BitVec 4} (h : encode (.armUndefMedia c hi lo) = .arm w) :
    decodeArm w = .ok (.armUndefMedia c hi lo) := by
  obtain ⟨cond, kind, hi, set, lo⟩ := armUndefMedia_iff.1 h
  have set := bitAt_eq_iff (b := true).2 set
  simp [decodeArm, *]

/-- The ARM decoder finds every instruction in its word. -/
theorem decodeArm_of_encode {i : Instr} {w : Word} (h : encode i = .arm w) : decodeArm w = .ok i := by
  cases i
  case armAnd | armEor | armSub | armRsb | armAdd | armAdc | armSbc | armRsc | armOrr | armBic =>
    exact decodeArm_encodeDataProc (Code.arm.inj h) (by simp)
  case armTst | armTeq | armCmp | armCmn => exact decodeArm_encodeDataProc (Code.arm.inj h) (by simp)
  case armMov | armMvn => exact decodeArm_encodeDataProc (Code.arm.inj h) (by simp)
  case armMul => exact (decodeArm_encodeMultiply (Code.arm.inj h)).1 rfl rfl
  case armMla => exact (decodeArm_encodeMultiply (Code.arm.inj h)).2.1 rfl
  case armUmull => exact (decodeArm_encodeMultiply (Code.arm.inj h)).2.2.1 rfl
  case armUmlal => exact (decodeArm_encodeMultiply (Code.arm.inj h)).2.2.2.1 rfl
  case armSmull => exact (decodeArm_encodeMultiply (Code.arm.inj h)).2.2.2.2.1 rfl
  case armSmlal => exact (decodeArm_encodeMultiply (Code.arm.inj h)).2.2.2.2.2 rfl
  case armSwp | armSwpb => exact decodeArm_encodeSwap (Code.arm.inj h)
  case armMrs => exact decodeArm_armMrs h
  case armMsrReg => exact decodeArm_armMsrReg h
  case armMsrImm => exact decodeArm_armMsrImm h
  case armBx => exact decodeArm_armBx h
  case armB => exact decodeArm_armB h
  case armBl => exact decodeArm_armBl h
  case armLdr => exact decodeArm_encodeTransfer (b := false) (l := true) (Code.arm.inj h)
  case armStr => exact decodeArm_encodeTransfer (b := false) (l := false) (Code.arm.inj h)
  case armLdrb => exact decodeArm_encodeTransfer (b := true) (l := true) (Code.arm.inj h)
  case armStrb => exact decodeArm_encodeTransfer (b := true) (l := false) (Code.arm.inj h)
  case armLdrt => exact decodeArm_encodeTransferT (b := false) (l := true) (Code.arm.inj h)
  case armStrt => exact decodeArm_encodeTransferT (b := false) (l := false) (Code.arm.inj h)
  case armLdrbt => exact decodeArm_encodeTransferT (b := true) (l := true) (Code.arm.inj h)
  case armStrbt => exact decodeArm_encodeTransferT (b := true) (l := false) (Code.arm.inj h)
  case armStrh => exact (decodeArm_encodeHalfword (Code.arm.inj h)).1 rfl rfl
  case armLdrh => exact (decodeArm_encodeHalfword (Code.arm.inj h)).2.1 rfl rfl
  case armLdrsb => exact (decodeArm_encodeHalfword (Code.arm.inj h)).2.2.1 rfl rfl
  case armLdrsh => exact (decodeArm_encodeHalfword (Code.arm.inj h)).2.2.2 rfl rfl
  case armLdmia | armLdmib | armLdmda | armLdmdb => exact decodeArm_encodeBlock (l := true) (Code.arm.inj h)
  case armStmia | armStmib | armStmda | armStmdb => exact decodeArm_encodeBlock (l := false) (Code.arm.inj h)
  case armSwi => exact decodeArm_armSwi h
  case armCdp => exact decodeArm_armCdp h
  case armLdc => exact decodeArm_encodeCoprocTransfer (l := true) (Code.arm.inj h)
  case armStc => exact decodeArm_encodeCoprocTransfer (l := false) (Code.arm.inj h)
  case armMcr => exact decodeArm_encodeCoprocRegister (l := false) (Code.arm.inj h)
  case armMrc => exact decodeArm_encodeCoprocRegister (l := true) (Code.arm.inj h)
  case armUndefMedia => exact decodeArm_armUndefMedia h
  case armUndefMsr => exact decodeArm_armUndefMsr h
  all_goals exact absurd h (by simp [encode])

end
end Sys2Proof
end

section
/-! # What the ARM decoder finds in a word has that word -/

-- One proof at a time: threads that wait for each other would fill the memory the check allows.
set_option Elab.async false

namespace Sys2Proof

section
theorem extract_of_set {l s : Nat} {x : BitVec l} (h : bitAt x s = true) : x.extractLsb' s 1 = 1#1 := bitAt_eq_iff.1 h

theorem extract_of_clear {l s : Nat} {x : BitVec l} (h : bitAt x s = false) : x.extractLsb' s 1 = 0#1 :=
  bitAt_eq_iff.1 h

variable {c : Cond} {w : Word} {i : Instr}

theorem decodeDataProc_ok {op : BitVec 4} {sf : Bool} {rn rd : Reg} {op2 : Operand2}
    (h : decodeDataProc c op sf rn rd op2 = .ok i) (test : op.extractLsb' 2 2 = 2#2 → sf = true) :
    encode i = .arm (encodeDataProc c op sf rn rd op2) := by
  unfold decodeDataProc at h
  split at h
  case h_9 | h_10 | h_11 | h_12 =>
    obtain rfl := test (by decide)
    split at h
    · rename_i zero
      cases h
      rw [zero]
      rfl
    · cases h
  case h_14 =>
    split at h
    · rename_i zero
      cases h
      rw [zero]
      rfl
    · cases h
  case h_16 =>
    simp only [imp_false] at *
    have last : op = 15#4 := by bv_omega
    split at h
    · rename_i zero
      cases h
      rw [zero, last]
      rfl
    · cases h
  all_goals cases h; rfl

theorem nine_of_bits (bit7 : bitAt w 7 = true) (bit4 : bitAt w 4 = true) (zero : w.extractLsb' 5 2 = 0#2) :
    w.extractLsb' 4 4 = 9#4 :=
  extract_of_fields (extract_of_fields (bitAt_eq_iff.1 bit7) zero) (bitAt_eq_iff.1 bit4)

theorem test_of_group (group : ¬ (w.extractLsb' 23 2 = 2#2 ∧ bitAt w 20 = false)) :
    (w.extractLsb' 21 4).extractLsb' 2 2 = 2#2 → bitAt w 20 = true := by
  rw [extract_extract _ _ _ _ _ (by omega)]
  intro two
  simpa using fun clear => group ⟨two, clear⟩

variable (cond : w.extractLsb' 28 4 = c.bits)
include cond

/-- The operand 2 of a register form (R187, R188). -/
theorem encodeDataProc_registerForm (kind : w.extractLsb' 25 3 = 0#3) (low : ¬ (bitAt w 7 = true ∧ bitAt w 4 = true)) :
    encodeDataProc c (w.extractLsb' 21 4) (bitAt w 20) (w.extractLsb' 16 4) (w.extractLsb' 12 4)
      (if bitAt w 4 then .shiftReg (ShiftType.ofBits (w.extractLsb' 5 2)) (w.extractLsb' 8 4) (w.extractLsb' 0 4)
        else .shiftImm (ShiftType.ofBits (w.extractLsb' 5 2)) (w.extractLsb' 7 5) (w.extractLsb' 0 4)) = w := by
  have form : w.extractLsb' 26 2 = 0#2 := extract_of_extract kind 1 2
  have register : w.extractLsb' 25 1 = 0#1 := extract_of_extract kind 0 1
  rw [encodeDataProc_iff]
  refine ⟨cond, form, ?_, rfl, (flagBit_bitAt ..).symm, rfl, rfl, ?_⟩
  · split <;> exact register
  · split
    · rename_i reg
      have high : bitAt w 7 = false := by simpa [reg] using low
      exact shiftReg_field_iff.2 ⟨rfl, bitAt_eq_iff.1 high, (ShiftType.bits_ofBits _).symm, bitAt_eq_iff.1 reg, rfl⟩
    · rename_i reg
      exact shiftImm_field_iff.2 ⟨rfl, (ShiftType.bits_ofBits _).symm, bitAt_eq_iff.1 (Bool.eq_false_iff.2 reg), rfl⟩

theorem decodeMultiply_ok (kind : w.extractLsb' 25 3 = 0#3) (low : w.extractLsb' 4 4 = 9#4)
    (h : decodeMultiply c w = .ok i) : encode i = .arm w := by
  have mul {op : BitVec 7} (o : w.extractLsb' 21 7 = op) : encodeMultiply c op (bitAt w 20) (w.extractLsb' 16 4)
      (w.extractLsb' 12 4) (w.extractLsb' 8 4) (w.extractLsb' 0 4) = w :=
    encodeMultiply_iff.2 ⟨cond, o, (flagBit_bitAt ..).symm, rfl, rfl, rfl, low, rfl⟩
  unfold decodeMultiply at h
  simp only at h
  split at h
  · rename_i short
    have op (b : Bool) (e : bitAt w 21 = b) : w.extractLsb' 21 7 = 0#6 ++ flagBit b :=
      extract_of_fields (extract_of_fields kind short) (bitAt_eq_iff.1 e)
    split at h
    · rename_i acc
      cases h
      exact congrArg Code.arm (mul (op true acc))
    · rename_i acc
      split at h
      · rename_i zero
        cases h
        have e := mul (op false (Bool.eq_false_iff.2 acc))
        rw [zero] at e
        exact congrArg Code.arm e
      · cases h
  · split at h
    · rename_i long
      have op {v : BitVec 2} (e : w.extractLsb' 21 2 = v) : w.extractLsb' 21 7 = 0#3 ++ 1#2 ++ v :=
        extract_of_fields (extract_of_fields kind long) e
      rcases twoBits_cases (w.extractLsb' 21 2) with e | e | e | e <;> simp only [e] at h <;> cases h <;>
        exact congrArg Code.arm (mul (op e))
    · split at h
      · rename_i fields
        obtain ⟨long, zero, rs⟩ := fields
        have swap : encodeSwap c (bitAt w 22) (w.extractLsb' 16 4) (w.extractLsb' 12 4) (w.extractLsb' 0 4) = w :=
          encodeSwap_iff.2 ⟨cond, extract_of_fields kind long, (flagBit_bitAt ..).symm, zero, rfl, rfl, rs, low, rfl⟩
        cases h
        split
        all_goals
          rename_i byte
          simp only [byte] at swap
          exact congrArg Code.arm swap
      · cases h

theorem decodeHalfword_ok (kind : w.extractLsb' 25 3 = 0#3) (bit7 : bitAt w 7 = true) (bit4 : bitAt w 4 = true)
    (some : w.extractLsb' 5 2 ≠ 0#2) (h : decodeHalfword c w = .ok i) : encode i = .arm w := by
  unfold decodeHalfword at h
  simp only at h
  split at h
  · cases h
  rename_i store
  split at h
  · cases h
  rename_i post
  split at h
  · cases h
  rename_i sbz
  obtain ⟨p, wb⟩ := index_fields_iff.2 ⟨rfl, post⟩
  obtain ⟨imm, high, low⟩ := offset3_fields_iff.2 ⟨rfl, sbz⟩
  have word {l : BitVec 1} {sh : BitVec 2} (load : w.extractLsb' 20 1 = l) (shift : w.extractLsb' 5 2 = sh) :=
    encodeHalfword_iff.2 ⟨cond, kind, p, (flagBit_bitAt ..).symm, imm, wb, load, rfl, rfl, high,
      bitAt_eq_iff.1 bit7, shift, bitAt_eq_iff.1 bit4, low⟩
  rcases twoBits_cases (w.extractLsb' 5 2) with e | e | e | e
  · exact absurd e some
  · cases load : bitAt w 20 <;> simp only [e, load, Bool.false_eq_true, if_true, if_false] at h <;> cases h
    · exact congrArg Code.arm (word (extract_of_clear load) e)
    · exact congrArg Code.arm (word (extract_of_set load) e)
  all_goals
    have load : bitAt w 20 = true := by simpa [e] using store
    simp only [e] at h
    cases h
    exact congrArg Code.arm (word (extract_of_set load) e)

theorem decodeControl_ok (form : w.extractLsb' 23 5 = 2#5) (flags : bitAt w 20 = false)
    (h : decodeControl c w = .ok i) : encode i = .arm w := by
  have zero (b : Bool) (e : bitAt w 21 = b) : w.extractLsb' 20 2 = flagBit b ++ 0#1 :=
    extract_of_fields (bitAt_eq_iff.1 e) (bitAt_eq_iff.1 flags)
  unfold decodeControl at h
  split at h
  · rename_i bx
    cases h
    have top : w.extractLsb' 23 5 = 2#5 := form
    exact armBx_iff.2 ⟨cond, extract_of_fields form bx, rfl⟩
  · split at h
    · rename_i fields
      obtain ⟨read, ones, low⟩ := fields
      cases h
      exact armMrs_iff.2 ⟨cond, form, (flagBit_bitAt ..).symm, zero false read, ones, rfl, low⟩
    · split at h
      · rename_i fields
        obtain ⟨write, fixed⟩ := fields
        cases h
        exact armMsrReg_iff.2 ⟨cond, form, (flagBit_bitAt ..).symm, zero true write, rfl,
          extract_of_extract fixed 8 4, extract_of_extract fixed 0 8, rfl⟩
      · cases h

theorem decodeRegisterForms_ok (kind : w.extractLsb' 25 3 = 0#3) (h : decodeRegisterForms c w = .ok i) :
    encode i = .arm w := by
  unfold decodeRegisterForms at h
  split at h
  · rename_i low
    obtain ⟨bit7, bit4⟩ := low
    split at h
    · rename_i zero
      exact decodeMultiply_ok cond kind (nine_of_bits bit7 bit4 zero) h
    · rename_i some
      exact decodeHalfword_ok cond kind bit7 bit4 some h
  · rename_i low
    split at h
    · rename_i group
      obtain ⟨group, flags⟩ := group
      exact decodeControl_ok cond (extract_of_fields kind group) flags h
    · rename_i group
      rw [decodeDataProc_ok h (test_of_group group), encodeDataProc_registerForm cond kind low]

theorem decodeImmediateForms_ok (kind : w.extractLsb' 25 3 = 1#3) (h : decodeImmediateForms c w = .ok i) :
    encode i = .arm w := by
  unfold decodeImmediateForms at h
  split at h
  · rename_i group
    obtain ⟨group, flags⟩ := group
    have form : w.extractLsb' 23 5 = 1#3 ++ 2#2 := extract_of_fields kind group
    have zero (b : Bool) (e : bitAt w 21 = b) : w.extractLsb' 20 2 = flagBit b ++ 0#1 :=
      extract_of_fields (bitAt_eq_iff.1 e) (bitAt_eq_iff.1 flags)
    split at h
    · rename_i write
      split at h
      · rename_i ones
        cases h
        exact armMsrImm_iff.2 ⟨cond, form, (flagBit_bitAt ..).symm, zero true write, rfl, ones, rfl, rfl⟩
      · cases h
    · rename_i read
      cases h
      exact armUndefMsr_iff.2 ⟨cond, form, (flagBit_bitAt ..).symm, zero false (Bool.eq_false_iff.2 read), rfl⟩
  · rename_i group
    have immediate : w.extractLsb' 25 1 = 1#1 := extract_of_extract kind 0 1
    have word := encodeDataProc_iff (op2 := .imm _ _).2 ⟨cond, extract_of_extract kind 1 2, immediate, rfl,
      (flagBit_bitAt ..).symm, rfl, rfl, imm_field_iff.2 ⟨rfl, rfl⟩⟩
    rw [decodeDataProc_ok h (test_of_group group)]
    exact congrArg Code.arm word

theorem encode_decodeTransfer {off : Offset2} (form : w.extractLsb' 26 2 = 1#2)
    (register : w.extractLsb' 25 1 = off.registerBit) (field : w.extractLsb' 0 12 = off.field) :
    encode (decodeTransfer c w off) = .arm w := by
  have word {p b wb l : BitVec 1} (hp : w.extractLsb' 24 1 = p) (hb : w.extractLsb' 22 1 = b)
      (hw : w.extractLsb' 21 1 = wb) (hl : w.extractLsb' 20 1 = l) :
      encodeTransfer c p (bitAt w 23) b wb l (w.extractLsb' 16 4) (w.extractLsb' 12 4) off = w :=
    encodeTransfer_iff.2 ⟨cond, form, register, hp, (flagBit_bitAt ..).symm, hb, hw, hl, rfl, rfl, field⟩
  unfold decodeTransfer
  simp only
  by_cases post : bitAt w 24 = false ∧ bitAt w 21 = true
  · obtain ⟨p, wb⟩ := post
    rw [if_pos ⟨p, wb⟩]
    rw [bitAt_eq_iff] at p wb
    cases byte : bitAt w 22 <;> cases load : bitAt w 20 <;>
      exact congrArg Code.arm (word p (bitAt_eq_iff.1 byte) wb (bitAt_eq_iff.1 load))
  · rw [if_neg post]
    obtain ⟨p, wb⟩ := index_fields_iff.2 ⟨rfl, post⟩
    cases byte : bitAt w 22 <;> cases load : bitAt w 20 <;>
      exact congrArg Code.arm (word p (bitAt_eq_iff.1 byte) wb (bitAt_eq_iff.1 load))

theorem encode_decodeBlock (kind : w.extractLsb' 25 3 = 4#3) : encode (decodeBlock c w) = .arm w := by
  have word {pu : BitVec 2} {l : BitVec 1} (mode : w.extractLsb' 23 2 = pu) (load : w.extractLsb' 20 1 = l) :
      encodeBlock c pu (bitAt w 22) (bitAt w 21) l (w.extractLsb' 16 4) (w.extractLsb' 0 16) = w :=
    encodeBlock_iff.2 ⟨cond, kind, mode, (flagBit_bitAt ..).symm, (flagBit_bitAt ..).symm, load, rfl, rfl⟩
  unfold decodeBlock
  simp only
  cases load : bitAt w 20
  · rcases twoBits_cases (w.extractLsb' 23 2) with e | e | e | e <;> simp only [e] <;>
      exact congrArg Code.arm (word e (extract_of_clear load))
  · rcases twoBits_cases (w.extractLsb' 23 2) with e | e | e | e <;> simp only [e] <;>
      exact congrArg Code.arm (word e (extract_of_set load))

theorem encode_decodeCoprocTransfer (kind : w.extractLsb' 25 3 = 6#3) : encode (decodeCoprocTransfer c w) = .arm w := by
  have word {l : BitVec 1} (load : w.extractLsb' 20 1 = l) := encodeCoprocTransfer_iff.2 ⟨cond, kind,
    (flagBit_bitAt ..).symm, (flagBit_bitAt ..).symm, (flagBit_bitAt ..).symm, (flagBit_bitAt ..).symm, load, rfl, rfl,
    rfl, rfl⟩
  unfold decodeCoprocTransfer
  simp only
  cases load : bitAt w 20
  · exact congrArg Code.arm (word (extract_of_clear load))
  · exact congrArg Code.arm (word (extract_of_set load))

theorem encode_decodeCoproc (kind : w.extractLsb' 25 3 = 7#3) : encode (decodeCoproc c w) = .arm w := by
  have top {b : Bool} (e : bitAt w 24 = b) : w.extractLsb' 24 4 = 7#3 ++ flagBit b :=
    extract_of_fields kind (bitAt_eq_iff.1 e)
  unfold decodeCoproc
  simp only
  cases swi : bitAt w 24
  · cases reg : bitAt w 4
    · exact armCdp_iff.2 ⟨cond, top swi, rfl, rfl, rfl, rfl, rfl, bitAt_eq_iff.1 reg, rfl⟩
    · have word {l : BitVec 1} (load : w.extractLsb' 20 1 = l) := encodeCoprocRegister_iff.2 ⟨cond, top swi, rfl, load,
        rfl, rfl, rfl, rfl, bitAt_eq_iff.1 reg, rfl⟩
      cases load : bitAt w 20
      · exact congrArg Code.arm (word (extract_of_clear load))
      · exact congrArg Code.arm (word (extract_of_set load))
  · exact armSwi_iff.2 ⟨cond, top swi, rfl⟩

end

/-- What the ARM decoder finds in a word has that word. -/
theorem encode_of_decodeArm {i : Instr} {w : Word} (h : decodeArm w = .ok i) : encode i = .arm w := by
  unfold decodeArm at h
  split at h
  · cases h
  rename_i c cond
  have cond : w.extractLsb' 28 4 = c.bits := (Cond.ofBits_eq_some.1 cond).symm
  split at h
  case h_1 kind => exact decodeRegisterForms_ok cond kind h
  case h_2 kind => exact decodeImmediateForms_ok cond kind h
  case h_3 kind =>
    cases h
    exact encode_decodeTransfer cond (extract_of_extract kind 1 2) (extract_of_extract kind 0 1) rfl
  case h_4 kind =>
    have form : w.extractLsb' 26 2 = 1#2 := extract_of_extract kind 1 2
    have register : w.extractLsb' 25 1 = 1#1 := extract_of_extract kind 0 1
    split at h
    · rename_i set
      cases h
      exact armUndefMedia_iff.2 ⟨cond, kind, rfl, bitAt_eq_iff.1 set, rfl⟩
    · rename_i clear
      cases h
      exact encode_decodeTransfer cond form register
        (reg_field_iff.2 ⟨rfl, (ShiftType.bits_ofBits _).symm, bitAt_eq_iff.1 (Bool.eq_false_iff.2 clear), rfl⟩)
  case h_5 kind =>
    cases h
    exact encode_decodeBlock cond kind
  case h_6 kind =>
    have top {b : Bool} (e : bitAt w 24 = b) : w.extractLsb' 24 4 = 5#3 ++ flagBit b :=
      extract_of_fields kind (bitAt_eq_iff.1 e)
    cases h
    cases link : bitAt w 24
    · exact armB_iff.2 ⟨cond, top link, rfl⟩
    · exact armBl_iff.2 ⟨cond, top link, rfl⟩
  case h_7 kind =>
    cases h
    exact encode_decodeCoprocTransfer cond kind
  case h_8 =>
    simp only [imp_false] at *
    have kind : w.extractLsb' 25 3 = 7#3 := by bv_omega
    cases h
    exact encode_decodeCoproc cond kind
end Sys2Proof
end

section
/-! # Thumb words, and the decoder and the encoder together (R181, R199) -/

-- One proof at a time: threads that wait for each other would fill the memory the check allows.
set_option Elab.async false

namespace Sys2Proof

/-! ## The formats of Thumb words, by their fields (R180, R199) -/

section
variable {w : Half}

theorem encodeThumb3_iff {top : BitVec 7} {a b d : LowReg} :
    encodeThumb3 top a b d = w ↔
      w.extractLsb' 9 7 = top ∧ w.extractLsb' 6 3 = a ∧ w.extractLsb' 3 3 = b ∧ w.extractLsb' 0 3 = d := by
  rw [eq_iff_fieldAt]
  simp only [encodeThumb3, fieldAt_append, and_assoc]
  exact Iff.rfl

theorem encodeThumb5_iff {top imm5 : BitVec 5} {b d : LowReg} :
    encodeThumb5 top imm5 b d = w ↔
      w.extractLsb' 11 5 = top ∧ w.extractLsb' 6 5 = imm5 ∧ w.extractLsb' 3 3 = b ∧ w.extractLsb' 0 3 = d := by
  rw [eq_iff_fieldAt]
  simp only [encodeThumb5, fieldAt_append, and_assoc]
  exact Iff.rfl

theorem encodeThumb8_iff {top : BitVec 5} {r : LowReg} {field : BitVec 8} :
    encodeThumb8 top r field = w ↔
      w.extractLsb' 11 5 = top ∧ w.extractLsb' 8 3 = r ∧ w.extractLsb' 0 8 = field := by
  rw [eq_iff_fieldAt]
  simp only [encodeThumb8, fieldAt_append, and_assoc]
  exact Iff.rfl

theorem encodeThumbAlu_iff {op : BitVec 4} {s d : LowReg} :
    encodeThumbAlu op s d = w ↔
      w.extractLsb' 10 6 = 16#6 ∧ w.extractLsb' 6 4 = op ∧ w.extractLsb' 3 3 = s ∧ w.extractLsb' 0 3 = d := by
  rw [eq_iff_fieldAt]
  simp only [encodeThumbAlu, fieldAt_append, and_assoc]
  exact Iff.rfl

/-- Of format 5 the two parts of the destination together. -/
theorem encodeThumbHigh_iff {op : BitVec 2} {rm rd : Reg} :
    encodeThumbHigh op rm rd = w ↔
      w.extractLsb' 10 6 = 17#6 ∧ w.extractLsb' 8 2 = op ∧ w.extractLsb' 7 1 ++ w.extractLsb' 0 3 = rd ∧
        w.extractLsb' 3 4 = rm := by
  have join : w.extractLsb' 7 1 ++ w.extractLsb' 0 3 = rd ↔
      w.extractLsb' 7 1 = rd.extractLsb' 3 1 ∧ w.extractLsb' 0 3 = rd.extractLsb' 0 3 := by
    rw [eq_iff_fieldAt, fieldAt_append]
    exact and_congr eq_comm eq_comm
  rw [eq_iff_fieldAt, join]
  simp only [encodeThumbHigh, fieldAt_append, and_assoc]
  exact and_congr_right fun _ => and_congr_right fun _ => and_congr_right fun _ => and_comm

theorem thumbStack_iff {top : BitVec 8} {set : BitVec 1} {word7 : BitVec 7} :
    (top ++ set ++ word7 : Half) = w ↔ w.extractLsb' 8 8 = top ∧ w.extractLsb' 7 1 = set ∧ w.extractLsb' 0 7 = word7 := by
  rw [eq_iff_fieldAt]
  simp only [fieldAt_append, and_assoc]
  exact Iff.rfl

theorem thumbList_iff {l : BitVec 1} {extra : Bool} {list : BitVec 8} :
    (11#4 ++ l ++ 2#2 ++ flagBit extra ++ list : Half) = w ↔
      w.extractLsb' 12 4 = 11#4 ∧ w.extractLsb' 11 1 = l ∧ w.extractLsb' 9 2 = 2#2 ∧
        w.extractLsb' 8 1 = flagBit extra ∧ w.extractLsb' 0 8 = list := by
  rw [eq_iff_fieldAt]
  simp only [fieldAt_append, and_assoc]
  exact Iff.rfl

theorem thumbBCond_iff {c : Cond} {offset : BitVec 8} :
    encode (.thumbBCond c offset) = .thumb w ↔
      w.extractLsb' 12 4 = 13#4 ∧ w.extractLsb' 8 4 = c.bits ∧ w.extractLsb' 0 8 = offset := by
  simp only [encode, Code.thumb.injEq]
  rw [eq_iff_fieldAt]
  simp only [fieldAt_append, and_assoc]
  exact Iff.rfl

theorem thumb_two_iff {m n : Nat} {x : BitVec m} {y : BitVec n} {v : BitVec (m + n)} :
    x ++ y = v ↔ v.extractLsb' n m = x ∧ v.extractLsb' 0 n = y := by
  rw [eq_iff_fieldAt, fieldAt_append, Nat.zero_add]
  exact Iff.rfl

/-! ## The Thumb decoder on an instruction's word -/

theorem thumb3_fields {top : BitVec 7} {a b d : LowReg} (h : encodeThumb3 top a b d = w) :
    (w.extractLsb' 12 4 = top.extractLsb' 3 4 ∧ w.extractLsb' 11 3 = top.extractLsb' 2 3 ∧
      w.extractLsb' 9 2 = top.extractLsb' 0 2 ∧ w.extractLsb' 9 3 = top.extractLsb' 0 3) ∧
      w.extractLsb' 6 3 = a ∧ w.extractLsb' 3 3 = b ∧ w.extractLsb' 0 3 = d := by
  obtain ⟨top, fields⟩ := encodeThumb3_iff.1 h
  exact ⟨⟨extract_of_extract top 3 4, extract_of_extract top 2 3,
    extract_of_extract top 0 2, extract_of_extract top 0 3⟩, fields⟩

theorem thumb5_fields {top imm5 : BitVec 5} {b d : LowReg} (h : encodeThumb5 top imm5 b d = w) :
    (w.extractLsb' 12 4 = top.extractLsb' 1 4 ∧ w.extractLsb' 11 3 = top.extractLsb' 0 3 ∧ w.extractLsb' 11 5 = top) ∧
      w.extractLsb' 6 5 = imm5 ∧ w.extractLsb' 3 3 = b ∧ w.extractLsb' 0 3 = d := by
  obtain ⟨top, fields⟩ := encodeThumb5_iff.1 h
  exact ⟨⟨extract_of_extract top 1 4, extract_of_extract top 0 3, top⟩, fields⟩

theorem thumbTop_fields {top : BitVec 5} (h : w.extractLsb' 11 5 = top) :
    w.extractLsb' 12 4 = top.extractLsb' 1 4 ∧ w.extractLsb' 11 3 = top.extractLsb' 0 3 ∧
      w.extractLsb' 11 1 = top.extractLsb' 0 1 :=
  ⟨extract_of_extract h 1 4, extract_of_extract h 0 3, extract_of_extract h 0 1⟩

theorem thumb8_fields {top : BitVec 5} {r : LowReg} {field : BitVec 8} (h : encodeThumb8 top r field = w) :
    (w.extractLsb' 12 4 = top.extractLsb' 1 4 ∧ w.extractLsb' 11 3 = top.extractLsb' 0 3 ∧
      w.extractLsb' 11 1 = top.extractLsb' 0 1 ∧ w.extractLsb' 11 5 = top) ∧
      w.extractLsb' 8 3 = r ∧ w.extractLsb' 0 8 = field := by
  obtain ⟨top, fields⟩ := encodeThumb8_iff.1 h
  exact ⟨⟨extract_of_extract top 1 4, extract_of_extract top 0 3,
    extract_of_extract top 0 1, top⟩, fields⟩

theorem decodeThumb_encodeThumbAlu {op : BitVec 4} {s d : LowReg} (h : encodeThumbAlu op s d = w) :
    decodeThumb w = .ok (decodeThumbAlu op s d) := by
  obtain ⟨top, rfl, rfl, rfl⟩ := encodeThumbAlu_iff.1 h
  have group : w.extractLsb' 12 4 = 4#4 := extract_of_extract top 2 4
  have bit11 : bitAt w 11 = false := bitAt_eq_iff.2 (extract_of_extract top 1 1)
  have bit10 : bitAt w 10 = false := bitAt_eq_iff.2 (extract_of_extract top 0 1)
  simp [decodeThumb, group, bit11, bit10]

theorem decodeThumb_highSpace (top : w.extractLsb' 10 6 = 17#6) : decodeThumb w = decodeThumbHigh w := by
  have group : w.extractLsb' 12 4 = 4#4 := extract_of_extract top 2 4
  have bit11 : bitAt w 11 = false := bitAt_eq_iff.2 (extract_of_extract top 1 1)
  have bit10 : bitAt w 10 = true := bitAt_eq_iff.2 (extract_of_extract top 0 1)
  simp [decodeThumb, group, bit11, bit10]

/-- The Thumb decoder finds every encodable instruction in its word. -/
theorem decodeThumb_of_encode {i : Instr} (h : encode i = .thumb w) (encodable : i.encodable = true) :
    decodeThumb w = .ok i := by
  cases i
  case thumbLslImm | thumbLsrImm | thumbAsrImm | thumbStrImm | thumbLdrImm | thumbStrbImm | thumbLdrbImm |
      thumbStrhImm | thumbLdrhImm =>
    obtain ⟨⟨group, form, top⟩, imm, b, d⟩ := thumb5_fields (Code.thumb.inj h)
    simp [decodeThumb, decodeThumbImm, decodeThumbOffset, *]
  case thumbAddReg | thumbSubReg | thumbAddImm3 | thumbSubImm3 | thumbStrReg | thumbStrhReg | thumbStrbReg |
      thumbLdrsbReg | thumbLdrReg | thumbLdrhReg | thumbLdrbReg | thumbLdrshReg =>
    obtain ⟨⟨group, form, op2, op3⟩, a, b, d⟩ := thumb3_fields (Code.thumb.inj h)
    simp [decodeThumb, decodeThumbImm, decodeThumbRegOffset, *]
  case thumbMovImm | thumbCmpImm | thumbAddImm8 | thumbSubImm8 | thumbLdrPc | thumbStrSp | thumbLdrSp | thumbAddPc |
      thumbAddSp | thumbStmia | thumbLdmia =>
    obtain ⟨⟨group, form, bit, top⟩, r, field⟩ := thumb8_fields (Code.thumb.inj h)
    simp [decodeThumb, decodeThumbImm, decodeThumbOffset, bitAt, *]
  case thumbAnd | thumbEor | thumbLslReg | thumbLsrReg | thumbAsrReg | thumbAdc | thumbSbc | thumbRor | thumbTst |
      thumbNeg | thumbCmpReg | thumbCmn | thumbOrr | thumbMul | thumbBic | thumbMvn =>
    exact decodeThumb_encodeThumbAlu (Code.thumb.inj h)
  case thumbAddHi | thumbCmpHi | thumbMovHi | thumbBx =>
    obtain ⟨top, op, rd, rm⟩ := encodeThumbHigh_iff.1 (Code.thumb.inj h)
    simp [decodeThumb_highSpace top, decodeThumbHigh, *]
  case thumbIncSp | thumbDecSp =>
    obtain ⟨top, set, word7⟩ := thumbStack_iff.1 (Code.thumb.inj h)
    have group : w.extractLsb' 12 4 = 11#4 := extract_of_extract top 4 4
    have zero : w.extractLsb' 8 4 = 0#4 := extract_of_extract top 0 4
    simp [decodeThumb, decodeThumbMisc, bitAt, *]
  case thumbPush | thumbPop =>
    obtain ⟨group, load, two, extra, list⟩ := thumbList_iff.1 (Code.thumb.inj h)
    have some : w.extractLsb' 8 4 ≠ 0#4 := fun zero => absurd (two.symm.trans (extract_of_extract zero 1 2)) (by decide)
    simp [decodeThumb, decodeThumbMisc, bitAt, *]
  case thumbBCond c offset =>
    obtain ⟨group, cond, offset⟩ := thumbBCond_iff.1 h
    have notAl : c ≠ .al := by simpa [Instr.encodable] using encodable
    simp [decodeThumb, decodeThumbCond, *]
  case thumbUndefB lo =>
    obtain ⟨group, field⟩ := thumb_two_iff.1 (Code.thumb.inj h)
    have high : w.extractLsb' 8 4 = lo.extractLsb' 8 4 := extract_of_extract field 8 4
    have middle : w.extractLsb' 9 2 = lo.extractLsb' 9 2 := extract_of_extract field 9 2
    simp only [Instr.encodable, Bool.and_eq_true, bne_iff_ne] at encodable
    obtain ⟨notStack, notList⟩ := encodable
    have notStack : w.extractLsb' 8 4 ≠ 0#4 := high ▸ notStack
    have notList : w.extractLsb' 9 2 ≠ 2#2 := middle ▸ notList
    simp [decodeThumb, decodeThumbMisc, group, field, notStack, notList]
  case thumbSwi | thumbUndefDe =>
    obtain ⟨top, lo⟩ := thumb_two_iff.1 (Code.thumb.inj h)
    have group : w.extractLsb' 12 4 = 13#4 := extract_of_extract top 4 4
    have cond : w.extractLsb' 8 4 = _ := extract_of_extract top 0 4
    simp [decodeThumb, decodeThumbCond, Cond.ofBits, *]
  case thumbB | thumbBlHigh | thumbBlLow | thumbUndefE8 =>
    obtain ⟨top, lo⟩ := thumb_two_iff.1 (Code.thumb.inj h)
    obtain ⟨group, form, bit⟩ := thumbTop_fields top
    simp [decodeThumb, bitAt, *]
  all_goals exact absurd h (by simp [encode])

/-! ## What the Thumb decoder finds has that word -/

theorem encode_decodeThumbAlu (top : w.extractLsb' 10 6 = 16#6) :
    encode (decodeThumbAlu (w.extractLsb' 6 4) (w.extractLsb' 3 3) (w.extractLsb' 0 3)) = .thumb w := by
  have word {op : BitVec 4} (e : w.extractLsb' 6 4 = op) : encodeThumbAlu op (w.extractLsb' 3 3) (w.extractLsb' 0 3) = w :=
    encodeThumbAlu_iff.2 ⟨top, e, rfl, rfl⟩
  unfold decodeThumbAlu
  split
  case h_16 =>
    simp only [imp_false] at *
    exact congrArg Code.thumb (word (op := 15) (by bv_omega))
  all_goals
    rename_i e
    exact congrArg Code.thumb (word e)

theorem decodeThumbHigh_ok {i : Instr} (top : w.extractLsb' 10 6 = 17#6) (h : decodeThumbHigh w = .ok i) :
    encode i = .thumb w := by
  have word {op : BitVec 2} {rd : Reg} (e : w.extractLsb' 8 2 = op) (d : w.extractLsb' 7 1 ++ w.extractLsb' 0 3 = rd) :=
    encodeThumbHigh_iff.2 ⟨top, e, d, rfl⟩
  unfold decodeThumbHigh at h
  simp only at h
  split at h
  case h_1 e | h_2 e | h_3 e =>
    cases h
    exact congrArg Code.thumb (word e rfl)
  case h_4 =>
    simp only [imp_false] at *
    have e : w.extractLsb' 8 2 = 3 := by bv_omega
    split at h
    · rename_i zero
      cases h
      exact congrArg Code.thumb (word e zero)
    · cases h

theorem encode_decodeThumbRegOffset (group : w.extractLsb' 12 4 = 5#4) :
    encode (decodeThumbRegOffset w) = .thumb w := by
  have word {top : BitVec 7} (e : w.extractLsb' 9 7 = top) := encodeThumb3_iff.2 ⟨e, rfl, rfl, rfl⟩
  unfold decodeThumbRegOffset
  simp only
  split
  case h_8 =>
    simp only [imp_false] at *
    have e : w.extractLsb' 9 3 = 7#3 := by bv_omega
    exact congrArg Code.thumb (word (extract_of_fields group e))
  all_goals
    rename_i e
    exact congrArg Code.thumb (word (extract_of_fields group e))

theorem encode_decodeThumbMisc (group : w.extractLsb' 12 4 = 11#4) :
    encode (decodeThumbMisc w) = .thumb w ∧ (decodeThumbMisc w).encodable = true := by
  unfold decodeThumbMisc
  split
  · rename_i zero
    have stack {set : BitVec 1} (e : w.extractLsb' 7 1 = set) :=
      thumbStack_iff.2 ⟨extract_of_fields group zero, e, rfl⟩
    cases set : bitAt w 7
    · exact ⟨congrArg Code.thumb (stack (extract_of_clear set)), rfl⟩
    · exact ⟨congrArg Code.thumb (stack (extract_of_set set)), rfl⟩
  · rename_i some
    split
    · rename_i two
      have list {l : BitVec 1} (e : w.extractLsb' 11 1 = l) :=
        thumbList_iff.2 ⟨group, e, two, (flagBit_bitAt ..).symm, rfl⟩
      cases load : bitAt w 11
      · exact ⟨congrArg Code.thumb (list (extract_of_clear load)), rfl⟩
      · exact ⟨congrArg Code.thumb (list (extract_of_set load)), rfl⟩
    · rename_i other
      refine ⟨congrArg Code.thumb (thumb_two_iff.2 ⟨group, rfl⟩), ?_⟩
      simp only [Instr.encodable, Bool.and_eq_true, bne_iff_ne]
      rw [extract_extract _ _ _ _ _ (by omega), extract_extract _ _ _ _ _ (by omega)]
      exact ⟨some, other⟩

theorem encode_decodeThumbCond (group : w.extractLsb' 12 4 = 13#4) :
    encode (decodeThumbCond w) = .thumb w ∧ (decodeThumbCond w).encodable = true := by
  unfold decodeThumbCond
  split
  · rename_i none
    have top : w.extractLsb' 8 8 = 0xdf#8 := extract_of_fields group (Cond.ofBits_eq_none.1 none)
    exact ⟨congrArg Code.thumb (thumb_two_iff.2 ⟨top, rfl⟩), rfl⟩
  · rename_i al
    have top : w.extractLsb' 8 8 = 0xde#8 := extract_of_fields group (Cond.ofBits_eq_some.1 al).symm
    exact ⟨congrArg Code.thumb (thumb_two_iff.2 ⟨top, rfl⟩), rfl⟩
  · rename_i c notAl cond
    refine ⟨thumbBCond_iff.2 ⟨group, (Cond.ofBits_eq_some.1 cond).symm, rfl⟩, ?_⟩
    simpa [Instr.encodable] using notAl

theorem encode_decodeThumbImm (group : w.extractLsb' 14 2 = 0#2) : encode (decodeThumbImm w) = .thumb w := by
  have shift {top : BitVec 5} (e : w.extractLsb' 11 5 = top) := encodeThumb5_iff.2 ⟨e, rfl, rfl, rfl⟩
  have immediate {top : BitVec 5} (e : w.extractLsb' 11 5 = top) := encodeThumb8_iff.2 ⟨e, rfl, rfl⟩
  have add {top : BitVec 7} (e : w.extractLsb' 9 7 = top) := encodeThumb3_iff.2 ⟨e, rfl, rfl, rfl⟩
  unfold decodeThumbImm
  simp only
  split
  case h_1 e | h_2 e | h_3 e => exact congrArg Code.thumb (shift (extract_of_fields group e))
  case h_4 three =>
    have three : w.extractLsb' 11 5 = 3#5 := extract_of_fields group three
    rcases twoBits_cases (w.extractLsb' 9 2) with e | e | e | e <;> simp only [e] <;>
      exact congrArg Code.thumb (add (extract_of_fields three e))
  case h_5 e | h_6 e | h_7 e => exact congrArg Code.thumb (immediate (extract_of_fields group e))
  case h_8 =>
    simp only [imp_false] at *
    have e : w.extractLsb' 11 3 = 7#3 := by bv_omega
    exact congrArg Code.thumb (immediate (extract_of_fields group e))

/-- The eight tops of formats 9 to 11. -/
theorem offsetTop_cases : ∀ x : BitVec 5, 6 ≤ (x.extractLsb' 1 4).toNat → (x.extractLsb' 1 4).toNat ≤ 9 →
    x = 12#5 ∨ x = 13#5 ∨ x = 14#5 ∨ x = 15#5 ∨ x = 16#5 ∨ x = 17#5 ∨ x = 18#5 ∨ x = 19#5 := by
  decide

theorem encode_decodeThumbOffset (low : 6 ≤ (w.extractLsb' 12 4).toNat) (high : (w.extractLsb' 12 4).toNat ≤ 9) :
    encode (decodeThumbOffset w) = .thumb w := by
  have register {top : BitVec 5} (e : w.extractLsb' 11 5 = top) := encodeThumb5_iff.2 ⟨e, rfl, rfl, rfl⟩
  have stack {top : BitVec 5} (e : w.extractLsb' 11 5 = top) := encodeThumb8_iff.2 ⟨e, rfl, rfl⟩
  unfold decodeThumbOffset
  simp only
  split
  case h_1 e | h_2 e | h_3 e | h_4 e | h_5 e | h_6 e => exact congrArg Code.thumb (register e)
  case h_7 e => exact congrArg Code.thumb (stack e)
  case h_8 n12 n13 n14 n15 n16 n17 n18 =>
    rw [← extract_extract w 11 5 1 4 (by omega)] at low high
    exact congrArg Code.thumb (stack (((((((offsetTop_cases _ low high).resolve_left n12).resolve_left n13).resolve_left
      n14).resolve_left n15).resolve_left n16 |>.resolve_left n17).resolve_left n18))

/-- What the Thumb decoder finds in a word has that word. -/
theorem encode_of_decodeThumb {i : Instr} (h : decodeThumb w = .ok i) : encode i = .thumb w := by
  have top {v : BitVec 4} {b : Bool} (group : w.extractLsb' 12 4 = v) (e : bitAt w 11 = b) :
      w.extractLsb' 11 5 = v ++ flagBit b := extract_of_fields group (bitAt_eq_iff.1 e)
  unfold decodeThumb at h
  simp only at h
  split at h
  case h_1 group | h_2 group | h_3 group | h_4 group =>
    cases h
    exact encode_decodeThumbImm (extract_of_extract group 2 2)
  case h_5 group =>
    split at h
    · rename_i pc
      cases h
      have top : w.extractLsb' 11 5 = 9#5 := top group pc
      exact congrArg Code.thumb (encodeThumb8_iff.2 ⟨top, rfl, rfl⟩)
    · rename_i alu
      have low (b : Bool) (e : bitAt w 10 = b) : w.extractLsb' 10 6 = 8#5 ++ flagBit b :=
        extract_of_fields (top group (Bool.eq_false_iff.2 alu)) (bitAt_eq_iff.1 e)
      split at h
      · rename_i high
        exact decodeThumbHigh_ok (low true high) h
      · rename_i reg
        cases h
        exact encode_decodeThumbAlu (low false (Bool.eq_false_iff.2 reg))
  case h_6 group =>
    cases h
    exact encode_decodeThumbRegOffset group
  case h_7 group | h_8 group | h_9 group | h_10 group =>
    cases h
    exact encode_decodeThumbOffset (by rw [group]; decide) (by rw [group]; decide)
  case h_11 group =>
    cases h
    cases sp : bitAt w 11
    · exact congrArg Code.thumb (encodeThumb8_iff.2 ⟨top group sp, rfl, rfl⟩)
    · exact congrArg Code.thumb (encodeThumb8_iff.2 ⟨top group sp, rfl, rfl⟩)
  case h_12 group =>
    cases h
    exact (encode_decodeThumbMisc group).1
  case h_13 group =>
    cases h
    cases load : bitAt w 11
    · exact congrArg Code.thumb (encodeThumb8_iff.2 ⟨top group load, rfl, rfl⟩)
    · exact congrArg Code.thumb (encodeThumb8_iff.2 ⟨top group load, rfl, rfl⟩)
  case h_14 group =>
    cases h
    exact (encode_decodeThumbCond group).1
  case h_15 group =>
    cases h
    cases undef : bitAt w 11
    · exact congrArg Code.thumb (thumb_two_iff.2 ⟨top group undef, rfl⟩)
    · exact congrArg Code.thumb (thumb_two_iff.2 ⟨top group undef, rfl⟩)
  case h_16 =>
    simp only [imp_false] at *
    have group : w.extractLsb' 12 4 = 15#4 := by bv_omega
    cases h
    cases low : bitAt w 11
    · exact congrArg Code.thumb (thumb_two_iff.2 ⟨top group low, rfl⟩)
    · exact congrArg Code.thumb (thumb_two_iff.2 ⟨top group low, rfl⟩)

/-- Away from the groups the undefined words and the conditional branch share, every instruction is encodable. -/
theorem encodable_of_group {i : Instr} (h : encode i = .thumb w) (misc : w.extractLsb' 12 4 ≠ 11#4)
    (cond : w.extractLsb' 12 4 ≠ 13#4) : i.encodable = true := by
  cases i
  case thumbBCond => exact absurd (thumbBCond_iff.1 h).1 cond
  case thumbUndefB => exact absurd (thumb_two_iff.1 (Code.thumb.inj h)).1 misc
  all_goals rfl

/-- What the Thumb decoder finds is encodable. -/
theorem encodable_of_decodeThumb {i : Instr} (h : decodeThumb w = .ok i) : i.encodable = true := by
  by_cases misc : w.extractLsb' 12 4 = 11#4
  · simp only [decodeThumb, misc, Except.ok.injEq] at h
    exact h ▸ (encode_decodeThumbMisc misc).2
  by_cases cond : w.extractLsb' 12 4 = 13#4
  · simp only [decodeThumb, cond, Except.ok.injEq] at h
    exact h ▸ (encode_decodeThumbCond cond).2
  exact encodable_of_group (encode_of_decodeThumb h) misc cond

end

theorem encodable_of_arm {i : Instr} {v : Word} (h : encode i = .arm v) : i.encodable = true := by
  cases i
  case thumbBCond | thumbUndefB => exact absurd h (by simp [encode])
  all_goals rfl

/-- Settles O2. -/
theorem decodeIffEncode : Obligations.DecodeIffEncode := by
  intro k i
  cases k with
  | arm w =>
    constructor
    · intro h
      have word := encode_of_decodeArm h
      exact ⟨encodable_of_arm word, word⟩
    · rintro ⟨-, word⟩
      exact decodeArm_of_encode word
  | thumb w =>
    constructor
    · intro h
      exact ⟨encodable_of_decodeThumb h, encode_of_decodeThumb h⟩
    · rintro ⟨encodable, word⟩
      exact decodeThumb_of_encode word encodable

end Sys2Proof
end

section
/-! # The condition and the restrictions of an instruction (R183, R197, R206) -/

namespace Sys2Proof.Machine

/-! ## What the condition and the restrictions decide (R183, R197) -/

/-- An outcome that is an effect under a condition and a restriction. -/
def State.Conditional (s : State) (c : Cond) (broken : Option Restriction) (o : Out) : Prop :=
  ∃ effect, o = s.conditional c broken effect

theorem State.conditional_conditional (s : State) (c : Cond) (broken : Option Restriction) (effect : State → Out) :
    s.Conditional c broken (s.conditional c broken effect) := ⟨effect, rfl⟩

theorem dataProc_conditional (c : Cond) (broken : Option Restriction) (sf : Bool) (rd : Reg) (f : State → Alu)
    (s : State) : s.Conditional c broken (dataProc c broken sf rd f s) := ⟨_, rfl⟩

theorem dataTest_conditional (c : Cond) (broken : Option Restriction) (f : State → Alu) (s : State) :
    s.Conditional c broken (dataTest c broken f s) := ⟨_, rfl⟩

theorem multiply_conditional (c : Cond) (sf : Bool) (broken : Option Restriction) (rd : Reg)
    (value : State → Word) (s : State) : s.Conditional c broken (multiply c sf broken rd value s) := ⟨_, rfl⟩

theorem multiplyLong_conditional (c : Cond) (sf : Bool) (broken : Option Restriction) (hi lo : Reg)
    (value : State → BitVec 64) (s : State) :
    s.Conditional c broken (multiplyLong c sf broken hi lo value s) := ⟨_, rfl⟩

theorem execLdm_conditional (m : BlockMode) (c : Cond) (sf wb : Bool) (rn : Reg) (list : BitVec 16) (s : State) :
    s.Conditional c (ldmRestriction sf wb rn list) (execLdm m c sf wb rn list s) := ⟨_, rfl⟩

theorem execStm_conditional (m : BlockMode) (c : Cond) (sf wb : Bool) (rn : Reg) (list : BitVec 16) (s : State) :
    s.Conditional c (stmRestriction sf wb rn list) (execStm m c sf wb rn list s) := ⟨_, rfl⟩

/-- Every instruction with a condition is its effect under that condition and its restriction. One case a template
of meanings. -/
theorem exec_conditional {i : Instr} {c : Cond} (h : Instr.cond i = some c) (s : State) :
    s.Conditional c i.broken (exec i s) := by
  unfold exec
  cases i <;> cases h
  case armAnd | armEor | armSub | armRsb | armAdd | armAdc | armSbc | armRsc | armOrr | armMov | armBic | armMvn =>
    exact dataProc_conditional ..
  case armTst | armTeq | armCmp | armCmn => exact dataTest_conditional ..
  case armMul | armMla => exact multiply_conditional ..
  case armUmull | armUmlal | armSmull | armSmlal => exact multiplyLong_conditional ..
  case armLdmia | armLdmib | armLdmda | armLdmdb => exact execLdm_conditional ..
  case armStmia | armStmib | armStmda | armStmdb => exact execStm_conditional ..
  all_goals exact s.conditional_conditional _ _ _

/-- Every instruction without one is its effect under its restriction (R390). -/
theorem exec_unconditional {i : Instr} (h : Instr.cond i = none) (s : State) :
    ∃ effect, exec i s = s.unconditional i.broken effect := by
  unfold exec
  cases i
  case thumbMul | thumbAddHi | thumbMovHi | thumbCmpHi | thumbPush | thumbPop | thumbStmia | thumbLdmia =>
    exact ⟨_, rfl⟩
  all_goals cases h <;> exact ⟨fun _ => _, rfl⟩

/-! ## A condition that fails -/

/-- Going on to the next instruction changes no register and nothing outside the core (R29). -/
theorem State.onlyRegisters_advance (s : State) : OnlyRegisters [] s s.advance where
  regs := fun _ _ => rfl
  system := by constructor <;> rfl
  memsys := rfl
  bytes := fun _ => rfl
  control := rfl

/-- Settles O6. -/
theorem failedConditionDoesNothing : Obligations.FailedConditionDoesNothing := by
  intro i c s cond fails
  obtain ⟨effect, run⟩ := exec_conditional cond s
  exact ⟨s.advance, run.trans (if_neg (by simp [fails])), rfl, rfl, s.onlyRegisters_advance⟩

/-! ## The restrictions -/

/-- An instruction that breaks a restriction is refused by its name, unless its condition fails. -/
theorem exec_of_broken {i : Instr} {s : State} {r : Restriction}
    (passes : ∀ c, Instr.cond i = some c → s.passes c = true) (broken : i.broken = some r) :
    exec i s = .refused (.unpredictable r) := by
  rcases cond : Instr.cond i with _ | c
  · obtain ⟨effect, run⟩ := exec_unconditional cond s
    rw [run, broken]
    rfl
  · obtain ⟨effect, run⟩ := exec_conditional cond s
    rw [broken] at run
    exact run.trans (if_pos (passes c cond))

theorem firstBroken_eq_none_iff (l : List (Bool × Restriction)) :
    firstBroken l = none ↔ ∀ p ∈ l, p.1 = false := by
  induction l with
  | nil => simp [firstBroken]
  | cons p rest ih => cases h : p.1 <;> simp [firstBroken, h, ih]

section
variable {rn rd rs rm hi lo : Reg} {wb : Bool}

theorem op2Restriction_shiftReg_iff {sh : ShiftType} : op2Restriction rn rd (.shiftReg sh rs rm) = none ↔
    rn ≠ 15 ∧ rd ≠ 15 ∧ rs ≠ 15 ∧ rm ≠ 15 := by
  simp [op2Restriction, firstBroken_eq_none_iff, and_assoc]

theorem mulRestriction_iff : mulRestriction rd rn rs rm = none ↔
    rd ≠ 15 ∧ rn ≠ 15 ∧ rs ≠ 15 ∧ rm ≠ 15 ∧ rd ≠ rm := by
  simp [mulRestriction, firstBroken_eq_none_iff, and_assoc]

theorem longMulRestriction_iff : longMulRestriction hi lo rs rm = none ↔
    hi ≠ 15 ∧ lo ≠ 15 ∧ rs ≠ 15 ∧ rm ≠ 15 ∧ hi ≠ lo ∧ hi ≠ rm ∧ lo ≠ rm := by
  simp [longMulRestriction, firstBroken_eq_none_iff, and_assoc]

theorem swapRestriction_iff : swapRestriction rn rd rm = none ↔
    rn ≠ 15 ∧ rd ≠ 15 ∧ rm ≠ 15 ∧ rn ≠ rm ∧ rn ≠ rd := by
  simp [swapRestriction, firstBroken_eq_none_iff, and_assoc]

theorem notPcRestriction_iff {r : Reg} : notPcRestriction r = none ↔ r ≠ 15 := by
  simp [notPcRestriction, firstBroken_eq_none_iff]

/-- The base and the offset register of addressing mode 2 (R318). -/
theorem mode2Restriction_iff {off : Offset2} : mode2Restriction wb rn rd off = none ↔
    (wb = true → rn ≠ 15 ∧ rd ≠ rn) ∧
      ∀ sh amount rm, off = .reg sh amount rm → rm ≠ 15 ∧ (wb = true → rm ≠ rn) := by
  cases off <;> cases wb <;> simp [mode2Restriction, firstBroken_eq_none_iff]
  tauto

theorem mode2DataRestriction_iff {off : Offset2} : mode2DataRestriction wb rn rd off = none ↔
    rd ≠ 15 ∧ mode2Restriction wb rn rd off = none := by
  unfold mode2DataRestriction
  split
  · next pc => simp [pc]
  · next pc => exact (and_iff_right pc).symm

/-- The base and the offset register of addressing mode 3 (R318). -/
theorem mode3Restriction_iff {off : Offset3} : mode3Restriction wb rn rd off = none ↔
    rd ≠ 15 ∧ (wb = true → rn ≠ 15 ∧ rd ≠ rn) ∧ ∀ rm, off = .reg rm → rm ≠ 15 ∧ (wb = true → rm ≠ rn) := by
  cases off <;> cases wb <;> simp [mode3Restriction, firstBroken_eq_none_iff]
  tauto

theorem ldcRestriction_iff {p up : Bool} : ldcRestriction p up wb rn = none ↔
    ¬ (wb = true ∧ rn = 15) ∧ ¬ (p = false ∧ wb = false ∧ up = false) := by
  simp [ldcRestriction, firstBroken_eq_none_iff]

end

theorem Index.writesBack_iff {index : Index} : index.writesBack = true ↔ index ≠ .offset := by
  cases index <;> simp [Index.writesBack]

/-- The lowest register of a list (R337). -/
theorem holdsNotLowest_eq_false_iff {w : Nat} (hw : w ≤ 16) (list : BitVec w) (i : Reg) :
    holdsNotLowest list i = false ↔ (i ∈ listedRegs list → (listedRegs list).head? = some i) := by
  have bits : holdsNotLowest list i = false ↔
      (list.getLsbD i.toNat = true → ∀ j < i.toNat, list.getLsbD j = false) := by
    simp [holdsNotLowest]
  rw [bits, mem_listedRegs hw]
  refine imp_congr_right fun listed => ?_
  have bound : i.toNat < w := BitVec.lt_of_getLsbD listed
  rw [listedRegs, List.head?_map, List.head?_filter, Option.map_eq_some_iff]
  simp only [List.find?_range_eq_some, List.mem_range]
  constructor
  · intro lower
    exact ⟨i.toNat, ⟨listed, bound, fun j hj => by simp [lower j hj]⟩, by simp⟩
  · rintro ⟨k, ⟨-, hk, lower⟩, rfl⟩ j hj
    have := lower j (by rwa [BitVec.toNat_ofNat, Nat.mod_eq_of_lt (by omega)] at hj)
    simpa using this

section
variable {sf wb : Bool} {rn : Reg} {list : BitVec 16}

theorem ldmRestriction_iff : ldmRestriction sf wb rn list = none ↔
    list ≠ 0 ∧ rn ≠ 15 ∧ ¬ (sf = true ∧ wb = true ∧ list.getLsbD 15 = false) ∧
      ¬ (wb = true ∧ rn ∈ listedRegs list) := by
  simp [ldmRestriction, firstBroken_eq_none_iff, holds, mem_listedRegs]

theorem stmRestriction_iff : stmRestriction sf wb rn list = none ↔
    list ≠ 0 ∧ rn ≠ 15 ∧ ¬ (sf = true ∧ wb = true) ∧
      (wb = true → rn ∈ listedRegs list → (listedRegs list).head? = some rn) := by
  rw [← holdsNotLowest_eq_false_iff (by decide)]
  simp [stmRestriction, firstBroken_eq_none_iff]

end

section
variable {list : BitVec 8}

theorem thumbMulRestriction_iff {rs rd : LowReg} : thumbMulRestriction rs rd = none ↔ rs ≠ rd := by
  simp [thumbMulRestriction, firstBroken_eq_none_iff]

theorem highRestriction_iff {rm hd : Reg} : highRestriction rm hd = none ↔ 8 ≤ rm.toNat ∨ 8 ≤ hd.toNat := by
  simp [highRestriction, firstBroken_eq_none_iff, BitVec.ult]
  omega

theorem cmpHighRestriction_iff {rm hd : Reg} :
    cmpHighRestriction rm hd = none ↔ (8 ≤ rm.toNat ∨ 8 ≤ hd.toNat) ∧ hd ≠ 15 := by
  rw [← highRestriction_iff]
  simp [cmpHighRestriction, highRestriction, firstBroken_eq_none_iff]

theorem pushRestriction_iff {extra : Bool} : pushRestriction extra list = none ↔ extra = true ∨ list ≠ 0 := by
  cases extra <;> simp [pushRestriction, firstBroken_eq_none_iff]

theorem thumbStmiaRestriction_iff {rb : LowReg} : thumbStmiaRestriction rb list = none ↔
    list ≠ 0 ∧ (rb.reg ∈ listedRegs list → (listedRegs list).head? = some rb.reg) := by
  rw [← holdsNotLowest_eq_false_iff (by decide)]
  simp [thumbStmiaRestriction, firstBroken_eq_none_iff]

theorem thumbLdmiaRestriction_iff {rb : LowReg} : thumbLdmiaRestriction rb list = none ↔
    list ≠ 0 ∧ rb.reg ∉ listedRegs list := by
  simp [thumbLdmiaRestriction, firstBroken_eq_none_iff, holds, mem_listedRegs]

end

/-- The instructions of `Instr.unrestricted` break nothing. -/
theorem broken_of_unrestricted {i : Instr} (h : Instr.unrestricted i = true) : i.broken = none := by
  cases i <;> cases h <;> rfl

/-- Instructions of one restriction. -/
theorem forall_broken_iff {is : List Instr} {b : Option Restriction} {P : Prop}
    (same : is.map Instr.broken = List.replicate is.length b) (h : b = none ↔ P) :
    ∀ i ∈ is, (i.broken = none ↔ P) := fun i member => List.map_eq_replicate_iff.1 same i member ▸ h

/-- Settles O7. -/
theorem restrictedRegistersRefused : Obligations.RestrictedRegistersRefused := by
  refine ⟨fun i s r => exec_of_broken, fun c sf rn rd rs rm sh => ⟨?_, ?_, ?_⟩, ?_,
    fun c sf rd rn rs rm hi lo => ⟨?_, ?_, ?_, ?_⟩, ?_, fun c index up rn rd off => ⟨?_, ?_, ?_⟩, ?_,
    fun c sf wb rn list => ⟨?_, ?_⟩, ?_, fun rs rd rb rm hd extra list => ⟨?_, ?_, ?_, ?_, ?_, ?_⟩,
    fun i => broken_of_unrestricted⟩
  · exact forall_broken_iff rfl (op2Restriction_shiftReg_iff (sh := sh))
  · exact forall_broken_iff rfl ((op2Restriction_shiftReg_iff (sh := sh)).trans (by simp))
  · exact forall_broken_iff rfl ((op2Restriction_shiftReg_iff (sh := sh)).trans (by simp))
  · intro c sf rn rd op noShift
    cases op with
    | imm | shiftImm => exact List.map_eq_replicate_iff.1 rfl
    | shiftReg sh rs rm => exact absurd rfl (noShift sh rs rm)
  · exact mulRestriction_iff.trans (by simp)
  · exact mulRestriction_iff
  · exact forall_broken_iff rfl longMulRestriction_iff
  · exact forall_broken_iff rfl swapRestriction_iff
  · intro c sp mask r o1 o2 crn crm cp
    exact forall_broken_iff rfl notPcRestriction_iff
  · exact forall_broken_iff rfl (mode2Restriction_iff.trans (by rw [Index.writesBack_iff]))
  · exact forall_broken_iff rfl (mode2DataRestriction_iff.trans (by rw [mode2Restriction_iff, Index.writesBack_iff]))
  · exact forall_broken_iff rfl (mode2DataRestriction_iff.trans (by rw [mode2Restriction_iff, eq_self]))
  · intro c index up rn rd off
    exact forall_broken_iff rfl (mode3Restriction_iff.trans (by rw [Index.writesBack_iff]))
  · exact forall_broken_iff rfl ldmRestriction_iff
  · exact forall_broken_iff rfl stmRestriction_iff
  · intro c p up n wb rn crd cp off
    exact forall_broken_iff rfl ldcRestriction_iff
  · exact thumbMulRestriction_iff
  · exact forall_broken_iff rfl highRestriction_iff
  · exact cmpHighRestriction_iff
  · exact forall_broken_iff rfl pushRestriction_iff
  · exact thumbStmiaRestriction_iff
  · exact thumbLdmiaRestriction_iff

end Sys2Proof.Machine
end

section
/-! # Condition codes, the shifter and operand 2 (R182, R185 to R188) -/

namespace Sys2Proof.Machine

/-! ## Conditions (R182) -/

theorem decode_condition1111 {w : Word} (h : w.extractLsb' 28 4 = 15) :
    decode (.arm w) = .error .condition1111 := by
  show decodeArm w = _
  rw [decodeArm, h]
  rfl

/-- Settles O5. -/
theorem conditionCodes : Obligations.ConditionCodes := by
  intro s
  simp only [State.passes, State.flagN, State.flagZ, State.flagC, State.flagV]
  refine ⟨?_, ?_, ?_, ?_, ?_, ?_, ?_, ?_, ?_, ?_, ?_, ?_, ?_, ?_, ⟨rfl, trivial⟩, rfl, fun w => decode_condition1111⟩
  all_goals refine ⟨rfl, ?_⟩
  all_goals simp

/-! ## The shifter (R186) -/

theorem lsl_of_le {n : Nat} (pos : 1 ≤ n) (le : n ≤ 32) (x : Word) (c : Bool) :
    lsl x n c = ⟨x <<< n, x.getLsbD (32 - n)⟩ := by
  rw [lsl, if_neg (by omega), if_pos le]

theorem lsl_of_gt {n : Nat} (gt : 32 < n) (x : Word) (c : Bool) : lsl x n c = ⟨0, false⟩ := by
  rw [lsl, if_neg (by omega), if_neg (by omega)]

theorem lsr_of_le {n : Nat} (pos : 1 ≤ n) (le : n ≤ 32) (x : Word) (c : Bool) :
    lsr x n c = ⟨x >>> n, x.getLsbD (n - 1)⟩ := by
  rw [lsr, if_neg (by omega), if_pos le]

theorem lsr_of_gt {n : Nat} (gt : 32 < n) (x : Word) (c : Bool) : lsr x n c = ⟨0, false⟩ := by
  rw [lsr, if_neg (by omega), if_neg (by omega)]

theorem asr_of_lt {n : Nat} (pos : 1 ≤ n) (lt : n < 32) (x : Word) (c : Bool) :
    asr x n c = ⟨x.sshiftRight n, x.getLsbD (n - 1)⟩ := by
  rw [asr, if_neg (by omega), if_pos lt]

theorem asr_of_ge {n : Nat} (ge : 32 ≤ n) (x : Word) (c : Bool) :
    asr x n c = ⟨if x.getLsbD 31 then 0xffffffff else 0, x.getLsbD 31⟩ := by
  rw [asr, if_neg (by omega), if_neg (by omega)]
  rfl

theorem ror_of_multiple {n : Nat} (pos : 1 ≤ n) (multiple : n % 32 = 0) (x : Word) (c : Bool) :
    ror x n c = ⟨x, x.getLsbD 31⟩ := by
  rw [ror, if_neg (by omega), if_pos multiple]
  rfl

/-- A rotation right, by the two shifts it is made of. -/
theorem rotateRight_eq (x : Word) {k : Nat} (lt : k < 32) : x.rotateRight k = (x >>> k) ||| (x <<< (32 - k)) := by
  rw [BitVec.rotateRight_def, Nat.mod_eq_of_lt lt]

theorem ror_of_not_multiple {n : Nat} (h : n % 32 ≠ 0) (x : Word) (c : Bool) :
    ror x n c = ⟨(x >>> (n % 32)) ||| (x <<< (32 - n % 32)), x.getLsbD (n % 32 - 1)⟩ := by
  rw [ror, if_neg (by omega), if_neg h, rotateRight_eq x (Nat.mod_lt _ (by decide))]

theorem rrx_value_toNat (x : Word) (c : Bool) :
    (rrx x c).value.toNat = (if c then 2 ^ 31 else 0) + x.toNat / 2 := by
  have low : (x.extractLsb' 1 31).toNat = x.toNat / 2 := by
    rw [BitVec.extractLsb'_toNat, Nat.shiftRight_eq_div_pow]
    omega
  rw [rrx, BitVec.toNat_append, ← Nat.shiftLeft_add_eq_or_of_lt (BitVec.isLt _), low]
  cases c <;> rfl

/-- Settles O8. -/
theorem shiftOperations : Obligations.ShiftOperations := by
  intro x n c
  refine ⟨⟨rfl, rfl, rfl, rfl⟩, fun pos le => ?_, ?_, fun gt => lsl_of_gt gt x c, fun pos le => ?_, ?_,
    fun gt => lsr_of_gt gt x c, fun pos le => ?_, fun ge => asr_of_ge ge x c,
    fun pos multiple => ror_of_multiple pos multiple x c, fun h => ?_, ⟨rrx_value_toNat x c, rfl⟩, rfl, rfl, rfl, rfl⟩
  · rw [lsl_of_le pos (by omega)]
    exact ⟨by rw [BitVec.toNat_shiftLeft, Nat.shiftLeft_eq], rfl⟩
  · rw [lsl_of_le (by decide) (by decide)]
    rw [BitVec.shiftLeft_eq_zero (Nat.le_refl 32)]
    rfl
  · rw [lsr_of_le pos (by omega)]
    exact ⟨by rw [BitVec.toNat_ushiftRight, Nat.shiftRight_eq_div_pow], rfl⟩
  · rw [lsr_of_le (by decide) (by decide)]
    rw [BitVec.ushiftRight_eq_zero (Nat.le_refl 32)]
    rfl
  · rw [asr_of_lt pos (by omega)]
    exact ⟨by rw [BitVec.toInt_sshiftRight, Int.shiftRight_eq_div_pow]; rfl, rfl⟩
  · rw [ror_of_not_multiple h]
    exact ⟨rfl, rfl⟩

/-! ## Operand 2 (R185, R187, R188) -/

/-- Settles O9. -/
theorem operandTwoForms : Obligations.OperandTwoForms := by
  intro s
  refine ⟨fun rot imm => ?_, fun amount rm => ⟨rfl, rfl, rfl, rfl⟩, fun rs rm => ⟨rfl, rfl, rfl, rfl⟩⟩
  rw [State.operand2, rotatedImmediate, rotateRight_eq _ (by omega)]
  by_cases zero : rot = 0
  · subst zero
    simp
  · simp only [if_neg zero]
    rfl

end Sys2Proof.Machine
end

section
/-! # ARM branches and the undefined instructions (R193, R196, R206) -/

namespace Sys2Proof.Machine

/-! ## Branches (R193, R290, R291) -/

theorem armOffset_eq (offset : BitVec 24) : armOffset offset = BitVec.ofInt 32 (4 * offset.toInt) := by
  rw [armOffset, BitVec.signExtend, BitVec.toInt_append_zero]
  rfl

theorem alignPc_add_armOffset {pc : Word} (aligned : alignPc false pc = pc) (offset : BitVec 24) :
    alignPc false (pc + 8 + armOffset offset) = pc + 8 + armOffset offset := by
  have bytes : instrBytes false = 4 := rfl
  rw [alignPc_eq_self_iff, bytes] at aligned ⊢
  rw [armOffset_eq, BitVec.toNat_add, BitVec.toNat_add, BitVec.toNat_ofInt, show (8 : Word).toNat = 8 from rfl]
  omega

theorem exec_armB (c : Cond) (offset : BitVec 24) (s : State) :
    exec (.armB c offset) s = s.conditional c none fun s => .next (s.branchTo (s.pcRead + armOffset offset)) := rfl

theorem exec_armBl (c : Cond) (offset : BitVec 24) (s : State) :
    exec (.armBl c offset) s = s.conditional c none
      fun s => .next ((s.setReg 14 (s.pc + s.len)).branchTo (s.pcRead + armOffset offset)) := rfl

/-- A branch changes the program counter alone (R28). -/
theorem State.onlyRegisters_branchTo {ks : List (Fin 30)} {s t : State} (h : OnlyRegisters ks s t) (v : Word) :
    OnlyRegisters ks s (t.branchTo v) where
  regs := h.regs
  system := by obtain ⟨⟩ := h.system; constructor <;> assumption
  memsys := h.memsys
  bytes := h.bytes
  control := h.control

/-- A write of a register changes no other one and nothing outside the registers (R22). -/
theorem State.onlyRegisters_setReg (i : Reg) (v : Word) (s : State) :
    OnlyRegisters [phys s.mode i] s (s.setReg i v) where
  regs := s.sameRegs_setReg i v
  system := by constructor <;> simp
  memsys := by simp
  bytes := fun a => by simp [State.byteAt, State.settled]
  control := by simp

theorem State.onlyRegisters_refl (s : State) : OnlyRegisters [] s s where
  regs := fun _ _ => rfl
  system := by constructor <;> rfl
  memsys := rfl
  bytes := fun _ => rfl
  control := rfl

/-- Settles O20. -/
theorem armBranch : Obligations.ArmBranch := by
  intro s c offset passes arm aligned
  have len : s.len = 4 := by rw [State.len, arm]; rfl
  have read : s.pcRead = s.pc + 8 := by
    rw [State.pcRead, len, BitVec.add_assoc]
    rfl
  have target : alignPc s.thumb (s.pcRead + armOffset offset) = s.pc + 8 + BitVec.ofInt 32 (4 * offset.toInt) := by
    rw [arm, read, alignPc_add_armOffset aligned, armOffset_eq]
  constructor
  · rw [exec_armB, State.conditional_passes _ passes]
    exact ⟨_, rfl, target, rfl, rfl, State.onlyRegisters_branchTo s.onlyRegisters_refl _⟩
  · rw [exec_armBl, State.conditional_passes _ passes, len]
    refine ⟨_, rfl, ?_, rfl, ?_, ?_, State.onlyRegisters_branchTo (s.onlyRegisters_setReg ..) _⟩
    · rw [State.branchTo_pc, State.thumb_setReg, target]
    · simp
    · have link : (s.setReg 14 (s.pc + 4)).reg 14 = s.pc + 4 := by
        rw [State.reg_setReg _ _ _ _ (by decide), if_pos rfl]
      exact link

/-! ## The undefined instructions (R196, R206) -/

/-- Settles O25. -/
theorem undefinedInstructionEntry : Obligations.UndefinedInstructionEntry := by
  intro s c hi20 lo20 lo4 r lo12 lo8 lo11 i undefined
  have run : exec i s = .next s.takeUndefined := by
    rcases undefined with ⟨passes, rfl | rfl⟩ | rfl | rfl | rfl
    · exact State.conditional_passes (fun s => .next s.takeUndefined) passes
    · exact State.conditional_passes (fun s => .next s.takeUndefined) passes
    · rfl
    · rfl
    · rfl
  exact ⟨_, run, State.entered .., State.enter_outside ..⟩

end Sys2Proof.Machine
end

section
/-! # What a transfer leaves, and coprocessor transfers (R192, R360, R361) -/

namespace Sys2Proof.Machine

/-! ## What a transfer leaves unchanged -/

/-- A transfer that ends with these registers, this program counter and this memory system. -/
theorem State.onlyTransfer_of_regs {ks : List (Fin 30)} {s : State} {r : Vector Word 30} {ms : MemSys}
    (regs : SameRegsBut ks s { s with regs := r }) (tests : ms.testRegs = s.memsys.testRegs) (pc : Word)
    (pipe : List Fetched) (offTop userBank : Bool) :
    OnlyTransfer ks s
      { s with regs := r, memsys := ms, pc := pc, pipe := pipe, offTop := offTop, userBank := userBank } where
  regs := regs
  cpsr := rfl
  system := by constructor <;> rfl
  tests := (sameTestRegs_iff ..).2 tests

theorem MemSys.Kept.testRegs {big : Bool} {m m' : MemSys} (h : MemSys.Kept big m m') : m'.testRegs = m.testRegs := by
  simp only [MemSys.testRegs, h.cacheVictim, h.cacheBase, h.cacheStep, h.c15c, h.tlbBase, h.tlbPreserve,
    h.ram2Pointer, h.c15m]

theorem MemSys.Kept.byteAt {s : State} {ms : MemSys} (h : MemSys.Kept s.platform.bigEndian s.memsys ms) (a : Nat) :
    State.byteAt { s with memsys := ms } a = s.byteAt a := congrArg (fun m : Memory => m.get a) h.settled

theorem SameRegsBut.mono {ks ls : List (Fin 30)} {s t : State} (h : SameRegsBut ks s t) (sub : ks ⊆ ls) :
    SameRegsBut ls s t := fun k out => h k fun inside => out (sub inside)

/-! ## The base of a transfer (R317, R330, R360) -/

theorem State.writeBlockBase_eq (rn : Reg) (newBase : Option Word) (s : State) :
    s.writeBlockBase rn newBase = s.withBase rn newBase := by
  cases newBase <;> rfl

/-- The registers once the base is written back. -/
def State.baseRegs (s : State) (rn : Reg) : Option Word → Vector Word 30
  | none => s.regs
  | some v => if rn = 15 then s.regs else s.regs.set (phys s.mode rn) v

theorem State.withBase_regs (s : State) (rn : Reg) (newBase : Option Word) :
    s.withBase rn newBase = { s with regs := s.baseRegs rn newBase } := by
  cases newBase with
  | none => rfl
  | some v =>
    show s.setReg rn v = _
    unfold State.setReg State.setBankReg
    split
    · next pc => simp only [State.baseRegs, if_pos pc]
    · next general => simp only [State.baseRegs, if_neg general]

theorem State.sameRegs_baseRegs (s : State) (rn : Reg) (wb : Bool) (v : Word) :
    SameRegsBut (if wb then [phys s.mode rn] else []) s
      { s with regs := s.baseRegs rn (if wb then some v else none) } := by
  rw [← State.withBase_regs]
  cases wb with
  | false => exact fun _ _ => rfl
  | true => exact s.sameRegs_setReg rn v

/-- A base other than r15 holds what was written back to it. -/
theorem State.reg_base {s t : State} {rn : Reg} {v : Word} (base : rn ≠ 15) (mode : t.mode = s.mode)
    (regs : t.regs = s.baseRegs rn (some v)) : t.reg rn = v := by
  rw [State.reg, if_neg base]
  simp only [mode, regs, State.baseRegs, if_neg base]
  exact Vector.getElem_set_self _

/-! ## Words to and from a coprocessor (R360, R361) -/

/-- A coprocessor's words told to it, the base written back and memory as the transfer leaves it. -/
theorem State.onlyTransfer_coproc {s : State} {rn : Reg} {wb : Bool} {v : Word} {ms : MemSys}
    (tests : ms.testRegs = s.memsys.testRegs) (rest : List CoprocReply) (calls : List CoprocCall) :
    OnlyTransfer (if wb then [phys s.mode rn] else []) { s with coproc := rest, calls := calls }
      (State.advance { s with
        coproc := rest, calls := calls, memsys := ms, regs := s.baseRegs rn (if wb then some v else none) }) := by
  exact State.onlyTransfer_of_regs (s := { s with coproc := rest, calls := calls }) (s.sameRegs_baseRegs rn wb v)
    tests _ _ _ _

theorem State.Quiet.of_same {s t : State} (q : s.Quiet) (memsys : t.memsys = s.memsys) (pins : t.pins = s.pins)
    (dbg : t.dbg = s.dbg) : t.Quiet :=
  ⟨by rw [memsys]; exact q.canonical, by rw [memsys]; exact q.calm, by rw [pins]; exact q.dbgen,
    by rw [dbg]; exact q.ack⟩

/-- Settles O45. -/
theorem coprocessorTransfer : Obligations.CoprocessorTransfer := by
  intro s c p up n wb rn crd cp off r rest ws pas passes quiet attached debug system answers ready sound idx a opt
    base count
  have sound : ldcRestriction p up wb rn = none := sound
  have written (h : wb = true) : rn ≠ 15 := fun pc => (ldcRestriction_iff.1 sound).1 ⟨h, pc⟩
  obtain ⟨ldc, stc⟩ := State.exec_coprocTransfer (n := n) (crd := crd) (off := off) passes attached debug system
    answers ready sound
  have start : State.coprocBase p up wb rn off { s with coproc := rest } =
      (a, { s with coproc := rest, regs := s.baseRegs rn (if wb then some idx else none) }) := by
    rw [State.coprocBase_eq, State.withBase_regs]
    rfl
  rw [start, coprocOption_eq] at ldc stc
  have same : SameAccess s
      { s with coproc := rest, regs := s.baseRegs rn (if wb then some idx else none) } := ⟨rfl, rfl, rfl⟩
  have quiet' := quiet.of_same
    (t := { s with coproc := rest, regs := s.baseRegs rn (if wb then some idx else none) }) rfl rfl rfl
  have newBase (t : State) (mode : t.mode = s.mode)
      (regs : t.regs = s.baseRegs rn (if wb then some idx else none)) : wb = true → t.reg rn = idx := by
    rintro rfl
    exact State.reg_base (written rfl) mode regs
  constructor
  · intro length reads
    obtain ⟨ms, loads, kept⟩ := State.loadCoproc_reads (cp := cp) (crd := crd) (n := n) (opt := opt) (k := 0) quiet'
      (reads.congr quiet quiet' same)
    rw [length] at loads
    refine ⟨_, ldc.trans (congrArg endTransfer loads), rfl, newBase _ rfl rfl, rfl, rfl, ?_, ?_⟩
    · exact State.onlyTransfer_coproc (s := s) kept.testRegs rest _
    · exact kept.byteAt
  · intro writes
    obtain ⟨ms, stores, -, tests, bytes⟩ := State.storeCoproc_writes (cp := cp) (crd := crd) (n := n) (opt := opt)
      (k := 0) quiet' (writes.congr quiet quiet' same)
    have tests : ms.testRegs = s.memsys.testRegs := (sameTestRegs_iff ..).1 tests
    refine ⟨_, stc.trans (congrArg endTransfer stores), rfl, newBase _ rfl rfl, rfl, ?_, ?_, bytes⟩
    · simp [count, opt, Nat.add_comm]
    · exact State.onlyTransfer_coproc (s := s) tests rest _

end Sys2Proof.Machine
end

section
/-! # ARM block transfers (R191, R330 to R338) -/

namespace Sys2Proof.Machine

/-! ## The instructions -/

/-- LDM in each of its four modes (R341 to R344). -/
theorem State.ldmForms_exec {s : State} {c : Cond} {sf wb : Bool} {rn : Reg} {list : BitVec 16}
    {p : Instr × Word × Word} (member : p ∈ s.ldmForms c sf wb rn list) :
    ∃ m : BlockMode, exec p.1 s = execLdm m c sf wb rn list s ∧ p.1.broken = ldmRestriction sf wb rn list ∧
      p.2 = (m.start (s.reg rn) (listBytes (listedRegs list)),
        m.newBase (s.reg rn) (listBytes (listedRegs list))) := by
  simp only [State.ldmForms, List.mem_cons, List.not_mem_nil, or_false] at member
  rcases member with rfl | rfl | rfl | rfl
  · exact ⟨.ia, rfl, rfl, rfl⟩
  · exact ⟨.ib, rfl, rfl, rfl⟩
  · exact ⟨.da, rfl, rfl, rfl⟩
  · exact ⟨.db, rfl, rfl, rfl⟩

/-- STM in each of its four modes (R345 to R348). -/
theorem State.stmForms_exec {s : State} {c : Cond} {sf wb : Bool} {rn : Reg} {list : BitVec 16}
    {p : Instr × Word × Word} (member : p ∈ s.stmForms c sf wb rn list) :
    ∃ m : BlockMode, exec p.1 s = execStm m c sf wb rn list s ∧ p.1.broken = stmRestriction sf wb rn list ∧
      p.2 = (m.start (s.reg rn) (listBytes (listedRegs list)),
        m.newBase (s.reg rn) (listBytes (listedRegs list))) := by
  simp only [State.stmForms, List.mem_cons, List.not_mem_nil, or_false] at member
  rcases member with rfl | rfl | rfl | rfl
  · exact ⟨.ia, rfl, rfl, rfl⟩
  · exact ⟨.ib, rfl, rfl, rfl⟩
  · exact ⟨.da, rfl, rfl, rfl⟩
  · exact ⟨.db, rfl, rfl, rfl⟩

/-- The modes without a bank of their own are those without an SPSR (R37, R333). -/
theorem State.userBankMode_of_no_spsr {s : State} (h : s.spsrOf s.mode = none) : s.userBankMode = true := by
  unfold State.userBankMode
  revert h
  cases s.mode <;> simp [State.spsrOf]

/-! ## STM (R335, R337, R338) -/

/-- A block store that is let through: its words in memory, then the base. -/
theorem State.storeMultiple_writes {s : State} {start : Word} {values pas : List Word} (q : s.Quiet)
    (writes : s.WritesWords .blockWrite s.privileged start values pas) (rn : Reg) (newBase : Option Word)
    (finish : State → State) :
    ∃ ms, s.storeMultiple start rn newBase values finish =
        .next (finish { s with memsys := ms, regs := s.baseRegs rn newBase }) ∧
      ms.testRegs = s.memsys.testRegs ∧
      ∀ x, State.byteAt { s with memsys := ms } x =
        (storedWords s.platform.bigEndian pas values x).getD (s.byteAt x) := by
  obtain ⟨ms, stores, -, tests, bytes⟩ := State.storeWords_writes (b := .empty) q writes rfl rfl
  refine ⟨ms, ?_, (sameTestRegs_iff ..).1 tests, bytes⟩
  rw [State.storeMultiple, stores]
  simp only [Block.empty, State.writeBlockBase_eq, State.withBase_regs]
  rfl

/-- The end of STM: with ^ the User bank was used (R586). -/
def State.endStm (sf : Bool) (s : State) : State := { s.advance with userBank := sf || s.userBank }

theorem execStm_stores {s : State} {m : BlockMode} {c : Cond} {sf wb : Bool} {rn : Reg} {list : BitVec 16}
    (passes : s.passes c = true) (sound : stmRestriction sf wb rn list = none)
    (bank : sf = true → s.spsrOf s.mode ≠ none) :
    execStm m c sf wb rn list s =
      s.storeMultiple (m.start (s.reg rn) (listBytes (listedRegs list))) rn
        (if wb then some (m.newBase (s.reg rn) (listBytes (listedRegs list))) else none)
        ((listedRegs list).map (s.blockValue sf)) (State.endStm sf) := by
  unfold execStm
  rw [State.conditional_effect _ passes sound]
  cases sf with
  | true => simp only [if_true, State.userBankMode_of_spsr (bank rfl), Bool.false_eq_true, if_false,
      State.userValues_eq]; rfl
  | false => rfl

theorem execStm_refused {s : State} {m : BlockMode} {c : Cond} {wb : Bool} {rn : Reg} {list : BitVec 16}
    (passes : s.passes c = true) (sound : stmRestriction true wb rn list = none) (none : s.spsrOf s.mode = none) :
    execStm m c true wb rn list s = .refused .userBankMode := by
  unfold execStm
  rw [State.conditional_effect _ passes sound]
  simp only [if_true, State.userBankMode_of_no_spsr none]

/-- Settles O35. -/
theorem storeMultiple : Obligations.StoreMultiple := by
  intro s c sf wb rn list pas passes quiet p member sound values
  obtain ⟨m, run, restriction, places⟩ := State.stmForms_exec member
  rw [restriction] at sound
  obtain ⟨i, start, newBase⟩ := p
  obtain ⟨rfl, rfl⟩ := Prod.mk.inj places
  have base : rn ≠ 15 := (stmRestriction_iff.1 sound).2.1
  split
  · next user =>
    obtain ⟨rfl, none⟩ := user
    exact run.trans (execStm_refused passes sound none)
  · next bank =>
    intro writes
    obtain ⟨ms, stores, tests, bytes⟩ := State.storeMultiple_writes quiet writes rn
      (if wb then some (m.newBase (s.reg rn) (listBytes (listedRegs list))) else none) (State.endStm sf)
    refine ⟨_, run.trans ((execStm_stores passes sound fun h none => bank ⟨h, none⟩).trans stores), rfl, rfl, ?_,
      State.onlyTransfer_of_regs (s.sameRegs_baseRegs rn wb _) tests _ _ _ _, bytes⟩
    rintro rfl
    exact State.reg_base (s := s) base rfl rfl

/-! ## LDM (R330 to R334) -/

/-- The registers a block load leaves: the words in a mode's bank, the base written back (R330, R331). -/
structure State.Loaded (s : State) (bank : Mode) (regs : List Reg) (ws : List Word) (rn : Reg) (wb : Bool)
    (v : Word) (r : Vector Word 30) : Prop where
  words : ∀ q ∈ regs.zip ws, q.1 ≠ 15 → r[phys bank q.1] = q.2
  base : wb = true → r[phys s.mode rn] = v
  rest : SameRegsBut ((regs.filter (· ≠ 15)).map (phys bank) ++ if wb then [phys s.mode rn] else []) s
    { s with regs := r }

/-- The words of a block load are written over the registers with the base written back (R332, R337). -/
theorem State.loaded_writeLoaded {s : State} {bank : Mode} {regs : List Reg} {ws : List Word} {rn : Reg} {wb : Bool}
    (v : Word) (length : ws.length = regs.length) (nodup : regs.Nodup)
    (apart : wb = true → rn ≠ 15 ∧ ∀ i ∈ regs, i ≠ 15 → phys bank i ≠ phys s.mode rn) :
    s.Loaded bank regs ws rn wb v
      (State.writeLoaded bank none (regs.zip ws) (s.withBase rn (if wb then some v else none))).regs := by
  have keys : (regs.zip ws).map Prod.fst = regs := List.map_fst_zip (by omega)
  have listed {q : Reg × Word} (h : q ∈ regs.zip ws) : q.1 ∈ regs := (List.of_mem_zip h).1
  refine ⟨fun q member general => ?_, ?_, fun k out => ?_⟩
  · exact State.writeLoaded_mem bank none _ _ (keys.symm ▸ nodup) member general (by simp)
  · rintro rfl
    obtain ⟨base, apart⟩ := apart rfl
    rw [State.writeLoaded_other _ _ _ _ _ fun q member general _ => apart q.1 (listed member) general]
    show (s.setReg rn v).regs[_] = v
    rw [State.setReg, State.setBankReg_getElem _ _ _ _ _ base, if_pos rfl]
  · rw [List.mem_append, not_or] at out
    show (State.writeLoaded bank none (regs.zip ws) _).regs[k] = _
    rw [State.writeLoaded_other, State.withBase_regs]
    · exact s.sameRegs_baseRegs rn wb v k out.2
    · intro q member general _ same
      exact out.1 (List.mem_map.2 ⟨q.1, List.mem_filter.2 ⟨listed member, by simpa using general⟩, same⟩)

theorem State.completeLoadBlock_regs (p : LoadBlock) (b : Block) (s : State) :
    s.completeLoadBlock p b =
      { s with regs := (State.writeLoaded p.bank none b.loaded (s.withBase p.rn p.newBase)).regs } := by
  obtain ⟨r, written⟩ := State.writeLoaded_eq p.bank none b.loaded (s.withBase p.rn p.newBase)
  rw [State.completeLoadBlock, State.writeBlockBase_eq, written, State.withBase_regs]

/-- A block load that is let through. -/
theorem State.loadMultiple_reads {s : State} {start : Word} {bank : Mode} {regs : List Reg} {ws : List Word}
    {rn : Reg} {wb : Bool} {v : Word} (q : s.Quiet) (reads : s.ReadsWords .blockRead s.privileged start ws)
    (length : ws.length = regs.length) (nodup : regs.Nodup)
    (apart : wb = true → rn ≠ 15 ∧ ∀ i ∈ regs, i ≠ 15 → phys bank i ≠ phys s.mode rn)
    (finish : Block → State → Out) :
    ∃ ms r, s.loadMultiple ⟨start, rn, if wb then some v else none, regs, bank⟩ finish =
        finish ⟨regs.zip ws, none, none⟩ { s with memsys := ms, regs := r } ∧
      MemSys.Kept s.platform.bigEndian s.memsys ms ∧ s.Loaded bank regs ws rn wb v r := by
  obtain ⟨ms, loads, kept⟩ := State.loadWords_reads (b := .empty) q reads length.symm rfl rfl
  have loaded := State.loaded_writeLoaded (s := { s with memsys := ms }) v length nodup apart
  refine ⟨ms, _, ?_, kept, loaded.words, loaded.base, loaded.rest⟩
  rw [State.loadMultiple, loads]
  exact congrArg (finish _) (State.completeLoadBlock_regs ..)

/-- The word loaded for r15. -/
theorem Block.pcWord_of_mem {regs : List Reg} {ws : List Word} (nodup : regs.Nodup) {v : Word}
    (member : (15, v) ∈ regs.zip ws) : (⟨regs.zip ws, none, none⟩ : Block).pcWord = v := by
  show ((regs.zip ws).lookup 15).getD 0 = v
  induction regs generalizing ws with
  | nil => exact absurd member (by simp)
  | cons i regs ih =>
    cases ws with
    | nil => exact absurd member (by simp)
    | cons w ws =>
      obtain ⟨new, nodup⟩ := List.nodup_cons.1 nodup
      rw [List.zip_cons_cons] at member ⊢
      rw [List.lookup_cons]
      rcases List.mem_cons.1 member with first | later
      · obtain ⟨rfl, rfl⟩ := Prod.mk.inj first
        rfl
      · have other : (15 == i) = false := beq_false_of_ne fun same => new (same ▸ (List.of_mem_zip later).1)
        rw [other]
        exact ih nodup later

theorem State.reg_of_regs {s t : State} {r : Vector Word 30} {i : Reg} (general : i ≠ 15) (mode : t.mode = s.mode)
    (regs : t.regs = r) : t.reg i = r[phys s.mode i] := by
  rw [State.reg, if_neg general]
  simp only [mode, regs]

/-- The words in the registers of the mode's own bank, as the instructions read them. -/
theorem State.Loaded.reads {s t : State} {regs : List Reg} {ws : List Word} {rn : Reg} {wb : Bool} {v : Word}
    {r : Vector Word 30} (h : s.Loaded s.mode regs ws rn wb v r) (mode : t.mode = s.mode) (same : t.regs = r)
    (base : wb = true → rn ≠ 15) :
    (∀ q ∈ regs.zip ws, q.1 ≠ 15 → t.reg q.1 = q.2) ∧ (wb = true → t.reg rn = v) :=
  ⟨fun q word general => (State.reg_of_regs general mode same).trans (h.words q word general),
    fun written => (State.reg_of_regs (base written) mode same).trans (h.base written)⟩

/-- In one bank the base is apart from the listed registers when it is not among them. -/
theorem ldm_apart {sf wb : Bool} {rn : Reg} {list : BitVec 16} (sound : ldmRestriction sf wb rn list = none)
    (m : Mode) (h : wb = true) : rn ≠ 15 ∧ ∀ i ∈ listedRegs list, i ≠ 15 → phys m i ≠ phys m rn := by
  obtain ⟨-, base, -, listed⟩ := ldmRestriction_iff.1 sound
  refine ⟨base, fun i member general same => listed ⟨h, ?_⟩⟩
  rwa [← (phys_inj m i rn general base).1 same]

section
variable {s : State} {m : BlockMode} {c : Cond} {sf wb : Bool} {rn : Reg} {list : BitVec 16}

theorem execLdm_loads (passes : s.passes c = true) (sound : ldmRestriction false wb rn list = none) :
    execLdm m c false wb rn list s =
      s.loadMultiple ⟨m.start (s.reg rn) (listBytes (listedRegs list)), rn,
        if wb then some (m.newBase (s.reg rn) (listBytes (listedRegs list))) else none, listedRegs list, s.mode⟩
        (endLoad (listedRegs list)) :=
  State.conditional_effect _ passes sound

/-- LDM with ^ in a mode without an SPSR (R37, R333, R334). -/
theorem execLdm_refused (passes : s.passes c = true) (sound : ldmRestriction true wb rn list = none)
    (none : s.spsrOf s.mode = none) :
    execLdm m c true wb rn list s = .refused (if list.getLsbD 15 then .noSpsr else .userBankMode) := by
  refine (State.conditional_effect _ passes sound).trans ?_
  have spsr : s.spsr.isNone = true := by rw [State.spsr, none]; rfl
  simp only [if_true, spsr, State.userBankMode_of_no_spsr none]
  split <;> rfl

/-- LDM with ^ and without r15 loads the User registers (R333). -/
theorem execLdm_user (passes : s.passes c = true) (sound : ldmRestriction true wb rn list = none)
    (bank : s.spsrOf s.mode ≠ none) (user : list.getLsbD 15 = false) :
    execLdm m c true wb rn list s =
      s.loadMultiple ⟨m.start (s.reg rn) (listBytes (listedRegs list)), rn,
        if wb then some (m.newBase (s.reg rn) (listBytes (listedRegs list))) else none, listedRegs list, .usr⟩
        fun _ s => .next { s.advance with userBank := true } := by
  refine (State.conditional_effect _ passes sound).trans ?_
  simp only [if_true, user, State.userBankMode_of_spsr bank, Bool.false_eq_true, if_false, Bool.not_false,
    Bool.and_true]

/-- LDM with ^ and r15 returns from an exception (R334). -/
theorem execLdm_returns (passes : s.passes c = true) (sound : ldmRestriction true wb rn list = none)
    (bank : s.spsrOf s.mode ≠ none) (returns : list.getLsbD 15 = true) :
    execLdm m c true wb rn list s =
      s.loadMultiple ⟨m.start (s.reg rn) (listBytes (listedRegs list)), rn,
        if wb then some (m.newBase (s.reg rn) (listBytes (listedRegs list))) else none, listedRegs list, s.mode⟩
        fun b s => s.returnTo b.pcWord := by
  refine (State.conditional_effect _ passes sound).trans ?_
  have spsr : s.spsr.isNone = false := Option.isNone_eq_false_iff.2 (Option.isSome_iff_ne_none.2 bank)
  simp only [if_true, returns, spsr, Bool.false_eq_true, if_false, Bool.not_true, Bool.and_false]

end

theorem alignPc_eq_and (thumb : Bool) (v : Word) :
    alignPc thumb v = v &&& (if thumb then 0xfffffffe else 0xfffffffc) := by
  cases thumb <;> rfl

/-- The state after the words of a load changes nothing but these registers, the program counter and the memory
system, which holds what it did. -/
theorem State.onlyLoad_of_regs {ks : List (Fin 30)} {s : State} {r : Vector Word 30} {ms : MemSys}
    (regs : SameRegsBut ks s { s with regs := r }) (kept : MemSys.Kept s.platform.bigEndian s.memsys ms) (pc : Word)
    (pipe : List Fetched) (offTop userBank : Bool) :
    OnlyLoad ks s
      { s with regs := r, memsys := ms, pc := pc, pipe := pipe, offTop := offTop, userBank := userBank } :=
  ⟨State.onlyTransfer_of_regs regs kept.testRegs _ _ _ _, kept.byteAt⟩

/-- LDM with S = 0 on a quiet machine whose words are let through (R330 to R332). -/
theorem State.ldm_loads {s : State} {c : Cond} {wb : Bool} {rn : Reg} {list : BitVec 16} {ws : List Word}
    {p : Instr × Word × Word} (passes : s.passes c = true) (quiet : s.Quiet)
    (member : p ∈ s.ldmForms c false wb rn list) (sound : p.1.broken = none)
    (length : ws.length = (listedRegs list).length) (reads : s.ReadsWords .blockRead s.privileged p.2.1 ws) :
    ∃ ms r, exec p.1 s = endLoad (listedRegs list) ⟨(listedRegs list).zip ws, none, none⟩
        { s with memsys := ms, regs := r } ∧
      MemSys.Kept s.platform.bigEndian s.memsys ms ∧ s.Loaded s.mode (listedRegs list) ws rn wb p.2.2 r := by
  obtain ⟨m, run, restriction, places⟩ := State.ldmForms_exec member
  rw [restriction] at sound
  obtain ⟨i, start, newBase⟩ := p
  obtain ⟨rfl, rfl⟩ := Prod.mk.inj places
  obtain ⟨ms, r, loads, kept, loaded⟩ := State.loadMultiple_reads quiet reads length
    (listedRegs_nodup (by decide) list) (ldm_apart sound s.mode) (endLoad (listedRegs list))
  exact ⟨ms, r, run.trans ((execLdm_loads passes sound).trans loads), kept, loaded⟩

/-- Settles O33. -/
theorem loadMultiple : Obligations.LoadMultiple := by
  refine ⟨fun s c wb rn list ws passes quiet p member sound length reads => ?_, fun s priv a n quiet flat =>
    ⟨flat.readsWords quiet .blockRead priv a n, flat.writesWords quiet .blockWrite priv a⟩⟩
  obtain ⟨ms, r, run, kept, loaded⟩ := State.ldm_loads passes quiet member sound length reads
  have base (h : wb = true) : rn ≠ 15 := by
    obtain ⟨m, -, restriction, -⟩ := State.ldmForms_exec member
    exact (ldm_apart (restriction ▸ sound) s.mode h).1
  by_cases pc : 15 ∈ listedRegs list
  · rw [endLoad, if_pos (List.contains_iff_mem.2 pc)] at run
    obtain ⟨words, written⟩ := loaded.reads (t := State.branchTo _ { s with memsys := ms, regs := r }) rfl rfl base
    refine ⟨_, run, words, written, fun out => absurd pc out, fun q word isPc => ?_,
      State.onlyLoad_of_regs loaded.rest kept _ _ _ _⟩
    obtain ⟨i, v⟩ := q
    obtain rfl : i = 15 := isPc
    rw [State.branchTo_pc, Block.pcWord_of_mem (listedRegs_nodup (by decide) list) word]
    exact alignPc_eq_and s.thumb v
  · rw [endLoad, if_neg (mt List.contains_iff_mem.1 pc)] at run
    obtain ⟨words, written⟩ := loaded.reads (t := State.advance { s with memsys := ms, regs := r }) rfl rfl base
    exact ⟨_, run, words, written, fun _ => rfl, fun q word isPc => absurd (isPc ▸ (List.of_mem_zip word).1) pc,
      State.onlyLoad_of_regs loaded.rest kept _ _ _ _⟩

theorem State.returnTo_legal {s : State} {psr : Word} (saved : s.spsrOf s.mode = some psr)
    (legal : legalMode psr = true) (v : Word) : s.returnTo v = .next (State.branchTo v { s with cpsr := psr }) := by
  rw [State.returnTo, State.spsr, saved]
  exact if_pos legal

/-- With ^ the base is written back only when r15 is in the list (R333). -/
theorem ldm_user_writeBack {wb : Bool} {rn : Reg} {list : BitVec 16} (sound : ldmRestriction true wb rn list = none)
    (user : list.getLsbD 15 = false) : wb = false := by
  obtain ⟨-, -, bankBase, -⟩ := ldmRestriction_iff.1 sound
  cases wb with
  | false => rfl
  | true => exact absurd ⟨rfl, rfl, user⟩ bankBase

section
variable {s : State} {m : BlockMode} {c : Cond} {wb : Bool} {rn : Reg} {list : BitVec 16} {ws : List Word}

/-- LDM with ^ and without r15 on a quiet machine whose words are let through (R333). -/
theorem State.ldm_user (passes : s.passes c = true) (quiet : s.Quiet) (sound : ldmRestriction true wb rn list = none)
    (bank : s.spsrOf s.mode ≠ none) (user : list.getLsbD 15 = false) (length : ws.length = (listedRegs list).length)
    (reads : s.ReadsWords .blockRead s.privileged (m.start (s.reg rn) (listBytes (listedRegs list))) ws) :
    ∃ t, execLdm m c true wb rn list s = .next t ∧ t.pc = s.pc + s.len ∧ t.userBank = true ∧
      (∀ q ∈ (listedRegs list).zip ws, t.regs[phys .usr q.1] = q.2) ∧
      OnlyLoad ((listedRegs list).map (phys .usr)) s t := by
  obtain rfl := ldm_user_writeBack sound user
  obtain ⟨ms, r, loads, kept, loaded⟩ := State.loadMultiple_reads (wb := false) (v := 0) quiet reads length
    (listedRegs_nodup (by decide) list) nofun fun _ s => .next { s.advance with userBank := true }
  have general {i : Reg} (listed : i ∈ listedRegs list) : i ≠ 15 := by
    rintro rfl
    exact absurd (((mem_listedRegs (by decide) list 15).1 listed).symm.trans user) (by decide)
  have registers : ((listedRegs list).filter (· ≠ 15)).map (phys .usr) ++ (if false then [phys s.mode rn] else []) ⊆
      (listedRegs list).map (phys .usr) := by
    rw [if_neg Bool.false_ne_true, List.append_nil]
    exact List.map_subset _ (List.filter_subset_self _)
  exact ⟨_, (execLdm_user passes sound bank user).trans loads, rfl, rfl,
    fun q word => loaded.words q word (general (List.of_mem_zip word).1),
    State.onlyLoad_of_regs (loaded.rest.mono registers) kept _ _ _ _⟩

/-- LDM with ^ and r15 on a quiet machine whose words are let through: the return (R334). -/
theorem State.ldm_returns {psr : Word} (passes : s.passes c = true) (quiet : s.Quiet)
    (sound : ldmRestriction true wb rn list = none) (saved : s.spsrOf s.mode = some psr)
    (legal : legalMode psr = true) (returns : list.getLsbD 15 = true) (length : ws.length = (listedRegs list).length)
    (reads : s.ReadsWords .blockRead s.privileged (m.start (s.reg rn) (listBytes (listedRegs list))) ws) :
    ∃ ms r v, execLdm m c true wb rn list s =
        .next (State.branchTo v { s with memsys := ms, regs := r, cpsr := psr }) ∧
      (15, v) ∈ (listedRegs list).zip ws ∧ MemSys.Kept s.platform.bigEndian s.memsys ms ∧
      s.Loaded s.mode (listedRegs list) ws rn wb (m.newBase (s.reg rn) (listBytes (listedRegs list))) r := by
  have nodup := listedRegs_nodup (by decide) list
  have keys : ((listedRegs list).zip ws).map Prod.fst = listedRegs list := List.map_fst_zip (by omega)
  have listed : 15 ∈ ((listedRegs list).zip ws).map Prod.fst :=
    keys.symm ▸ (mem_listedRegs (by decide) list 15).2 returns
  obtain ⟨⟨_, v⟩, word, rfl⟩ := List.mem_map.1 listed
  obtain ⟨ms, r, loads, kept, loaded⟩ := State.loadMultiple_reads (wb := wb) quiet reads length nodup
    (ldm_apart sound s.mode) fun b s => s.returnTo b.pcWord
  rw [Block.pcWord_of_mem nodup word] at loads
  exact ⟨ms, r, v, (execLdm_returns passes sound (by simp [saved]) returns).trans (loads.trans
    (State.returnTo_legal (s := { s with memsys := ms, regs := r }) saved legal v)), word, kept, loaded⟩

end

/-- Settles O34. -/
theorem loadMultipleWithCaret : Obligations.LoadMultipleWithCaret := by
  intro s c wb rn list ws passes quiet p member sound
  obtain ⟨m, run, restriction, places⟩ := State.ldmForms_exec member
  rw [restriction] at sound
  obtain ⟨i, start, newBase⟩ := p
  obtain ⟨rfl, rfl⟩ := Prod.mk.inj places
  split
  · next none => exact run.trans (execLdm_refused passes sound none)
  · next psr saved =>
    intro length reads
    split
    · next user =>
      obtain ⟨t, loads, rest⟩ := State.ldm_user passes quiet sound (by simp [saved]) user length reads
      exact ⟨t, run.trans loads, rest⟩
    · next returns =>
      intro legal
      obtain ⟨ms, r, v, loads, word, kept, loaded⟩ := State.ldm_returns passes quiet sound saved legal
        (by simpa using returns) length reads
      refine ⟨_, v, run.trans loads, word, rfl, alignPc_eq_and (psr.getLsbD 5) v, loaded.words, loaded.base,
        loaded.rest, ?_, (sameTestRegs_iff ..).2 kept.testRegs, kept.byteAt⟩
      constructor <;> rfl

end Sys2Proof.Machine
end

section
/-! # ARM data processing (R240 to R259) -/

namespace Sys2Proof.Machine

/-! ## The adder (R241)

`logical r c v` is a result with its own N and Z and with C and V as given: sums and differences are of that
form too, with C and V those of the exact integer. -/

theorem toInt_not_eq (y : Word) : (~~~y).toInt = -1 - y.toInt := by
  rw [BitVec.toInt_eq_toNat_cond, BitVec.toInt_eq_toNat_cond, BitVec.toNat_not]
  omega

theorem ofNat_toNat_add_carry (x y : Word) (k : Nat) :
    BitVec.ofNat 32 (x.toNat + y.toNat + k) = BitVec.ofInt 32 (x.toInt + y.toInt + k) := by
  simp only [BitVec.ofNat_add, BitVec.ofInt_add, BitVec.ofNat_toNat, BitVec.ofInt_toInt, BitVec.ofInt_natCast,
    BitVec.setWidth_eq]

/-- Operands of one sign with a sum of the other: the integer sum does not fit. -/
theorem overflows_add_carry (x y : Word) (c : Bool) :
    (x.msb == y.msb && (BitVec.ofNat 32 (x.toNat + y.toNat + c.toNat)).msb != x.msb) =
      overflows (x.toInt + y.toInt + c.toNat) := by
  have carry : c.toNat ≤ 1 := Bool.toNat_le c
  have xLt := x.isLt
  have yLt := y.isLt
  rw [Bool.eq_iff_iff]
  simp only [overflows, BitVec.msb_eq_decide, BitVec.toNat_ofNat, BitVec.toInt_eq_toNat_cond, Bool.and_eq_true,
    beq_iff_eq, bne_iff_ne, ne_eq, decide_eq_decide, decide_eq_true_eq]
  omega

/-- An addition with carry: the integer sum, its unsigned carry, its signed overflow. -/
theorem addWithCarry_eq (x y : Word) (c : Bool) :
    addWithCarry x y c = logical (BitVec.ofInt 32 (x.toInt + y.toInt + c.toNat))
      (decide (2 ^ 32 ≤ x.toNat + y.toNat + c.toNat)) (overflows (x.toInt + y.toInt + c.toNat)) := by
  rw [← ofNat_toNat_add_carry, ← overflows_add_carry]
  rfl

/-- A subtraction as the addition of the complement: C says that nothing was borrowed. -/
theorem addWithCarry_not_eq (x y : Word) (c : Bool) :
    addWithCarry x (~~~y) c = logical (BitVec.ofInt 32 (x.toInt - y.toInt - (!c).toNat))
      (decide (y.toNat + (!c).toNat ≤ x.toNat)) (overflows (x.toInt - y.toInt - (!c).toNat)) := by
  have yLt := y.isLt
  have borrow : (c.toNat : Int) = 1 - (!c).toNat := by cases c <;> rfl
  have difference : x.toInt + (~~~y).toInt + c.toNat = x.toInt - y.toInt - (!c).toNat := by
    rw [toInt_not_eq]
    omega
  have noBorrow : 2 ^ 32 ≤ x.toNat + (~~~y).toNat + c.toNat ↔ y.toNat + (!c).toNat ≤ x.toNat := by
    rw [BitVec.toNat_not]
    omega
  rw [addWithCarry_eq, difference, decide_eq_decide.2 noBorrow]

theorem addWithCarry_false_eq (x y : Word) :
    addWithCarry x y false = logical (BitVec.ofInt 32 (x.toInt + y.toInt)) (decide (2 ^ 32 ≤ x.toNat + y.toNat))
      (overflows (x.toInt + y.toInt)) := by
  simpa using addWithCarry_eq x y false

theorem addWithCarry_not_true_eq (x y : Word) :
    addWithCarry x (~~~y) true = logical (BitVec.ofInt 32 (x.toInt - y.toInt)) (decide (y.toNat ≤ x.toNat))
      (overflows (x.toInt - y.toInt)) := by
  simpa using addWithCarry_not_eq x y true

theorem ofInt_toInt_add (x y : Word) : BitVec.ofInt 32 (x.toInt + y.toInt) = x + y := by
  rw [BitVec.ofInt_add, BitVec.ofInt_toInt, BitVec.ofInt_toInt]

theorem ofInt_toInt_sub (x y : Word) : BitVec.ofInt 32 (x.toInt - y.toInt) = x - y :=
  BitVec.eq_of_toInt_eq (by rw [BitVec.toInt_ofInt, BitVec.toInt_sub])

theorem addWithCarry_false_value (x y : Word) : (addWithCarry x y false).value = x + y := by
  rw [addWithCarry_false_eq]
  exact ofInt_toInt_add x y

theorem addWithCarry_not_true_value (x y : Word) : (addWithCarry x (~~~y) true).value = x - y := by
  rw [addWithCarry_not_true_eq]
  exact ofInt_toInt_sub x y

theorem addWithCarry_value (x y : Word) (c : Bool) :
    (addWithCarry x y c).value = x + y + (if c then 1 else 0) := by
  rw [addWithCarry_eq]
  cases c <;> simp [logical, BitVec.ofInt_add]

theorem addWithCarry_not_value (x y : Word) (c : Bool) :
    (addWithCarry x (~~~y) c).value = x - y - (1 - (if c then 1 else 0)) := by
  rw [addWithCarry_value, BitVec.not_eq_neg_add]
  cases c <;> grind

/-! ## The shared end: the result, the flags, the next instruction (R240, R241) -/

/-- The flags are those of the CPSR. -/
theorem FlagsAre.congr {t u : State} {n z c v : Bool} (h : FlagsAre t n z c v) (cpsr : u.cpsr = t.cpsr) :
    FlagsAre u n z c v := by
  simpa only [FlagsAre, State.flagN, State.flagZ, State.flagC, State.flagV, cpsr] using h

theorem SameSystem.trans {s t u : State} (x : SameSystem s t) (y : SameSystem t u) : SameSystem s u := by
  obtain ⟨⟩ := x
  obtain ⟨⟩ := y
  constructor <;> simp only [*]

theorem OnlyRegisters.trans {ks : List (Fin 30)} {s t u : State} (x : OnlyRegisters ks s t)
    (y : OnlyRegisters ks t u) : OnlyRegisters ks s u where
  regs := fun k out => (y.regs k out).trans (x.regs k out)
  system := x.system.trans y.system
  memsys := y.memsys.trans x.memsys
  bytes := fun a => (y.bytes a).trans (x.bytes a)
  control := y.control.trans x.control

theorem OnlyRegisters.mono {ks ls : List (Fin 30)} {s t : State} (h : OnlyRegisters ks s t) (sub : ks ⊆ ls) :
    OnlyRegisters ls s t := { h with regs := h.regs.mono sub }

theorem State.onlyRegisters_setAluFlags (a : Alu) (s : State) : OnlyRegisters [] s (s.setAluFlags a) where
  regs := fun _ _ => rfl
  system := by constructor <;> rfl
  memsys := rfl
  bytes := fun _ => rfl
  control := withFlags_low ..

/-- A result in a register other than r15, without the flags. -/
theorem State.leavesResult_setReg {rd : Reg} (general : rd ≠ 15) (v : Word) (c ov : Bool) (s : State) :
    LeavesResult s (s.setReg rd v).advance false rd v c ov := by
  have only := (s.onlyRegisters_setReg rd v).trans ((State.onlyRegisters_advance _).mono (List.nil_subset _))
  refine ⟨?_, ?_, only, ?_⟩
  · rw [State.reg_advance _ general, State.reg_setReg _ _ _ _ general, if_pos rfl]
  · simp
  · exact State.setReg_cpsr rd v s

/-- A result's flags, without the result. -/
theorem State.leavesFlags_setAluFlags (v : Word) (c ov : Bool) (s : State) :
    LeavesFlags s (s.setAluFlags (logical v c ov)).advance v c ov := by
  refine ⟨?_, (s.onlyRegisters_setAluFlags _).trans (State.onlyRegisters_advance _), ?_⟩
  · simp
  · exact s.flags_setAluFlags (logical v c ov)

/-- A result in a register other than r15, with its flags. -/
theorem State.leavesResult_setAluFlags_setReg {rd : Reg} (general : rd ≠ 15) (v : Word) (c ov : Bool) (s : State) :
    LeavesResult s ((s.setAluFlags (logical v c ov)).setReg rd v).advance true rd v c ov := by
  obtain ⟨result, -, only, -⟩ := State.leavesResult_setReg general v c ov (s.setAluFlags (logical v c ov))
  rw [State.mode_setAluFlags] at only
  refine ⟨result, ?_, ((s.onlyRegisters_setAluFlags _).mono (List.nil_subset _)).trans only, ?_⟩
  · simp
  · exact (s.flags_setAluFlags (logical v c ov)).congr (State.setReg_cpsr ..)

theorem dataProcWrite_leaves {rd : Reg} (general : rd ≠ 15) (sf : Bool) (v : Word) (c ov : Bool) (s : State) :
    ∃ t, dataProcWrite sf rd (logical v c ov) s = .next t ∧ LeavesResult s t sf rd v c ov := by
  refine ⟨_, if_neg general, ?_⟩
  cases sf with
  | false => exact State.leavesResult_setReg general v c ov s
  | true => exact State.leavesResult_setAluFlags_setReg general v c ov s

/-! ## The instructions: one template, one operation each (R244 to R259) -/

section
variable (c : Cond) (sf : Bool) (rn rd : Reg) (op2 : Operand2) (s : State)

theorem exec_armAnd : exec (.armAnd c sf rn rd op2) s =
    dataProc c (op2Restriction rn rd op2) sf rd (fun s => s.logicalOp (s.reg rn &&& ·) op2) s := rfl

theorem exec_armEor : exec (.armEor c sf rn rd op2) s =
    dataProc c (op2Restriction rn rd op2) sf rd (fun s => s.logicalOp (s.reg rn ^^^ ·) op2) s := rfl

theorem exec_armSub : exec (.armSub c sf rn rd op2) s =
    dataProc c (op2Restriction rn rd op2) sf rd
      (fun s => addWithCarry (s.reg rn) (~~~(s.operand2 op2).value) true) s := rfl

theorem exec_armRsb : exec (.armRsb c sf rn rd op2) s =
    dataProc c (op2Restriction rn rd op2) sf rd
      (fun s => addWithCarry (s.operand2 op2).value (~~~(s.reg rn)) true) s := rfl

theorem exec_armAdd : exec (.armAdd c sf rn rd op2) s =
    dataProc c (op2Restriction rn rd op2) sf rd (fun s => addWithCarry (s.reg rn) (s.operand2 op2).value false) s := rfl

theorem exec_armAdc : exec (.armAdc c sf rn rd op2) s =
    dataProc c (op2Restriction rn rd op2) sf rd
      (fun s => addWithCarry (s.reg rn) (s.operand2 op2).value s.flagC) s := rfl

theorem exec_armSbc : exec (.armSbc c sf rn rd op2) s =
    dataProc c (op2Restriction rn rd op2) sf rd
      (fun s => addWithCarry (s.reg rn) (~~~(s.operand2 op2).value) s.flagC) s := rfl

theorem exec_armRsc : exec (.armRsc c sf rn rd op2) s =
    dataProc c (op2Restriction rn rd op2) sf rd
      (fun s => addWithCarry (s.operand2 op2).value (~~~(s.reg rn)) s.flagC) s := rfl

theorem exec_armOrr : exec (.armOrr c sf rn rd op2) s =
    dataProc c (op2Restriction rn rd op2) sf rd (fun s => s.logicalOp (s.reg rn ||| ·) op2) s := rfl

theorem exec_armMov : exec (.armMov c sf rd op2) s =
    dataProc c (op2Restriction 0 rd op2) sf rd (fun s => s.logicalOp id op2) s := rfl

theorem exec_armBic : exec (.armBic c sf rn rd op2) s =
    dataProc c (op2Restriction rn rd op2) sf rd (fun s => s.logicalOp (fun o => s.reg rn &&& ~~~o) op2) s := rfl

theorem exec_armMvn : exec (.armMvn c sf rd op2) s =
    dataProc c (op2Restriction 0 rd op2) sf rd (fun s => s.logicalOp (~~~ ·) op2) s := rfl

theorem exec_armTst : exec (.armTst c rn op2) s =
    dataTest c (op2Restriction rn 0 op2) (fun s => s.logicalOp (s.reg rn &&& ·) op2) s := rfl

theorem exec_armTeq : exec (.armTeq c rn op2) s =
    dataTest c (op2Restriction rn 0 op2) (fun s => s.logicalOp (s.reg rn ^^^ ·) op2) s := rfl

theorem exec_armCmp : exec (.armCmp c rn op2) s =
    dataTest c (op2Restriction rn 0 op2) (fun s => addWithCarry (s.reg rn) (~~~(s.operand2 op2).value) true) s := rfl

theorem exec_armCmn : exec (.armCmn c rn op2) s =
    dataTest c (op2Restriction rn 0 op2) (fun s => addWithCarry (s.reg rn) (s.operand2 op2).value false) s := rfl

end

section
variable {s : State} {c : Cond} {i : Instr} {broken : Option Restriction} {f : State → Alu} {v : Word} {k ov : Bool}

/-- A destination-writing instruction whose Rd is not r15 (R240). -/
theorem dataProc_leaves {rd : Reg} {sf : Bool} (run : exec i s = dataProc c broken sf rd f s)
    (passes : s.passes c = true) (sound : broken = none) (general : rd ≠ 15) (alu : f s = logical v k ov) :
    ∃ t, exec i s = .next t ∧ LeavesResult s t sf rd v k ov := by
  rw [run, dataProc, State.conditional_effect _ passes sound, alu]
  exact dataProcWrite_leaves general sf v k ov s

/-- A compare or test (R240). -/
theorem dataTest_leaves (run : exec i s = dataTest c broken f s) (passes : s.passes c = true)
    (sound : broken = none) (alu : f s = logical v k ov) :
    ∃ t, exec i s = .next t ∧ LeavesFlags s t v k ov := by
  rw [run, dataTest, State.conditional_effect _ passes sound, alu]
  exact ⟨_, rfl, s.leavesFlags_setAluFlags v k ov⟩

/-- A destination-writing instruction ends in the shared write of its result, whatever its Rd (R240). -/
theorem dataProc_writes {rd : Reg} {sf : Bool} (run : exec i s = dataProc c broken sf rd f s)
    (passes : s.passes c = true) (sound : broken = none) (value : (f s).value = v) :
    ∃ a : Alu, a.value = v ∧ exec i s = dataProcWrite sf rd a s :=
  ⟨f s, value, run.trans (State.conditional_effect _ passes sound)⟩

end

/-! ## The result in a register, the flags (R244 to R259) -/

/-- Settles O10. -/
theorem armLogicalResult : Obligations.ArmLogicalResult := by
  intro s c sf rn rd op2 passes general a b p member sound
  simp only [List.mem_cons, List.not_mem_nil, or_false] at member
  rcases member with rfl | rfl | rfl | rfl | rfl | rfl
  · exact dataProc_leaves (exec_armAnd ..) passes sound general rfl
  · exact dataProc_leaves (exec_armEor ..) passes sound general rfl
  · exact dataProc_leaves (exec_armOrr ..) passes sound general rfl
  · exact dataProc_leaves (exec_armBic ..) passes sound general rfl
  · exact dataProc_leaves (exec_armMov ..) passes sound general rfl
  · exact dataProc_leaves (exec_armMvn ..) passes sound general rfl

/-- Settles O11. -/
theorem armArithmeticResult : Obligations.ArmArithmeticResult := by
  intro s c sf rn rd op2 passes general a b k borrow p member sound
  simp only [List.mem_cons, List.not_mem_nil, or_false] at member
  rcases member with rfl | rfl | rfl | rfl | rfl | rfl
  · exact dataProc_leaves (exec_armAdd ..) passes sound general (addWithCarry_false_eq a b)
  · exact dataProc_leaves (exec_armAdc ..) passes sound general (addWithCarry_eq a b s.flagC)
  · exact dataProc_leaves (exec_armSub ..) passes sound general (addWithCarry_not_true_eq a b)
  · exact dataProc_leaves (exec_armSbc ..) passes sound general (addWithCarry_not_eq a b s.flagC)
  · exact dataProc_leaves (exec_armRsb ..) passes sound general (addWithCarry_not_true_eq b a)
  · exact dataProc_leaves (exec_armRsc ..) passes sound general (addWithCarry_not_eq b a s.flagC)

/-- Settles O12. -/
theorem armCompareFlags : Obligations.ArmCompareFlags := by
  intro s c rn op2 passes a b k p member sound
  simp only [List.mem_cons, List.not_mem_nil, or_false] at member
  rcases member with rfl | rfl | rfl | rfl
  · exact dataTest_leaves (exec_armTst ..) passes sound rfl
  · exact dataTest_leaves (exec_armTeq ..) passes sound rfl
  · exact dataTest_leaves (exec_armCmp ..) passes sound (ofInt_toInt_sub a b ▸ addWithCarry_not_true_eq a b)
  · exact dataTest_leaves (exec_armCmn ..) passes sound (ofInt_toInt_add a b ▸ addWithCarry_false_eq a b)

/-! ## Into r15: a branch, or the return from an exception (R242, R243) -/

/-- Each of the twelve ends in the shared write of the value listed beside it. -/
theorem State.dataProcResults_exec {s : State} {c : Cond} {sf : Bool} {rn rd : Reg} {op2 : Operand2}
    {p : Instr × Word} (passes : s.passes c = true) (member : p ∈ s.dataProcResults c sf rn rd op2)
    (sound : p.1.broken = none) : ∃ a : Alu, a.value = p.2 ∧ exec p.1 s = dataProcWrite sf rd a s := by
  simp only [State.dataProcResults, List.mem_cons, List.not_mem_nil, or_false] at member
  rcases member with rfl | rfl | rfl | rfl | rfl | rfl | rfl | rfl | rfl | rfl | rfl | rfl
  · exact dataProc_writes (exec_armAnd ..) passes sound rfl
  · exact dataProc_writes (exec_armEor ..) passes sound rfl
  · exact dataProc_writes (exec_armSub ..) passes sound (addWithCarry_not_true_value ..)
  · exact dataProc_writes (exec_armRsb ..) passes sound (addWithCarry_not_true_value ..)
  · exact dataProc_writes (exec_armAdd ..) passes sound (addWithCarry_false_value ..)
  · exact dataProc_writes (exec_armAdc ..) passes sound (addWithCarry_value ..)
  · exact dataProc_writes (exec_armSbc ..) passes sound (addWithCarry_not_value ..)
  · exact dataProc_writes (exec_armRsc ..) passes sound (addWithCarry_not_value ..)
  · exact dataProc_writes (exec_armOrr ..) passes sound rfl
  · exact dataProc_writes (exec_armMov ..) passes sound rfl
  · exact dataProc_writes (exec_armBic ..) passes sound rfl
  · exact dataProc_writes (exec_armMvn ..) passes sound rfl

theorem dataProcWrite_pc (a : Alu) (s : State) : dataProcWrite false 15 a s = .next (s.branchTo a.value) := rfl

theorem dataProcWrite_pc_return (a : Alu) (s : State) : dataProcWrite true 15 a s = s.returnTo a.value := rfl

/-- A branch, with the status register before it (R28, R243). -/
theorem State.onlyCore_branchTo (s : State) (psr v : Word) :
    OnlyCore [] s (State.branchTo v { s with cpsr := psr }) where
  regs := fun _ _ => rfl
  system := by constructor <;> rfl
  memsys := rfl
  bytes := fun _ => rfl

/-- User and System mode have no SPSR to return with (R37). -/
theorem State.returnTo_noSpsr {s : State} (none : s.spsrOf s.mode = none) (v : Word) :
    s.returnTo v = .refused .noSpsr := by
  rw [State.returnTo, State.spsr, none]

/-- A saved mode that is none of the seven leaves the machine stuck (R35). -/
theorem State.returnTo_illegal {s : State} {psr : Word} (saved : s.spsrOf s.mode = some psr)
    (illegal : ¬ legalMode psr = true) (v : Word) :
    s.returnTo v = .next { s with stuck := some .illegalMode } := by
  rw [State.returnTo, State.spsr, saved]
  exact if_neg illegal

/-- Settles O13. -/
theorem armResultToPc : Obligations.ArmResultToPc := by
  intro s c rn op2 passes
  refine ⟨fun p member sound => ?_, fun p member sound => ?_⟩
  · obtain ⟨a, value, run⟩ := State.dataProcResults_exec passes member sound
    rw [run, dataProcWrite_pc, value]
    exact ⟨_, rfl, alignPc_eq_and s.thumb p.2, rfl, rfl, s.onlyCore_branchTo s.cpsr p.2⟩
  · obtain ⟨a, value, run⟩ := State.dataProcResults_exec passes member sound
    rw [run, dataProcWrite_pc_return, value]
    split
    · next none => exact State.returnTo_noSpsr none p.2
    · next psr saved =>
      split
      · next legal =>
        exact ⟨_, State.returnTo_legal saved legal p.2, rfl, rfl, alignPc_eq_and (psr.getLsbD 5) p.2,
          s.onlyCore_branchTo psr p.2⟩
      · next illegal => exact State.returnTo_illegal saved illegal p.2

end Sys2Proof.Machine
end

section
namespace Sys2Proof.Machine

/-! ## The spec's example words -/

/-- Settles O1, by evaluating the decoder on each word. -/
theorem specWordsDecode : Obligations.SpecWordsDecode := by
  refine ⟨?_, ?_, ?_, ?_, ?_, ?_, ?_, ?_, ?_, ?_, ?_, ?_, ?_, ?_⟩ <;> decide

end Sys2Proof.Machine
end

section
/-! # Multiplies (R270 to R276, R416) -/

namespace Sys2Proof.Machine

/-! ## Free values and flags -/

/-- Drawing a free value changes nothing a program can see. -/
theorem State.onlyRegisters_draw (s : State) : OnlyRegisters [] s s.draw.2 where
  regs := fun _ _ => rfl
  system := by constructor <;> rfl
  memsys := rfl
  bytes := fun _ => rfl
  control := rfl

/-- A result left after a free value was drawn, for the flags v4 leaves open, is one left without it. -/
theorem LeavesResult.of_draw {s t : State} {sf : Bool} {rd : Reg} {v : Word} {c ov : Bool}
    (h : LeavesResult s.draw.2 t sf rd v c ov) : LeavesResult s t sf rd v c ov := by
  obtain ⟨result, pc, only, flags⟩ := h
  exact ⟨result, pc, (s.onlyRegisters_draw.mono (List.nil_subset _)).trans only, flags⟩

/-- The flags after `setFlags` are the ones it was given. -/
theorem State.flags_setFlags (n z c v : Bool) (s : State) : FlagsAre (s.setFlags n z c v) n z c v :=
  s.flags_setAluFlags ⟨0, n, z, c, v⟩

theorem State.onlyRegisters_setFlags (n z c v : Bool) (s : State) : OnlyRegisters [] s (s.setFlags n z c v) :=
  s.onlyRegisters_setAluFlags ⟨0, n, z, c, v⟩

/-! ## The 32-bit multiplies (R270, R271, R416) -/

/-- A 32-bit multiply sets the flags of a logical result whose carry is a free bit (R276). -/
theorem State.multiplyFlags_eq (r : Word) (s : State) :
    s.multiplyFlags r = s.draw.2.setAluFlags (logical r (s.draw.1.getLsbD 29) s.flagV) := rfl

theorem exec_armMul (c : Cond) (sf : Bool) (rd rs rm : Reg) (s : State) : exec (.armMul c sf rd rs rm) s =
    multiply c sf (mulRestriction rd 0 rs rm) rd (fun s => s.reg rm * s.reg rs) s := rfl

theorem exec_armMla (c : Cond) (sf : Bool) (rd rn rs rm : Reg) (s : State) : exec (.armMla c sf rd rn rs rm) s =
    multiply c sf (mulRestriction rd rn rs rm) rd (fun s => s.reg rm * s.reg rs + s.reg rn) s := rfl

/-- MUL and MLA leave the result of a logical instruction, with some carry and V as before. -/
theorem multiply_leaves {s : State} {c : Cond} {i : Instr} {broken : Option Restriction} {sf : Bool} {rd : Reg}
    {value : State → Word} (run : exec i s = multiply c sf broken rd value s) (passes : s.passes c = true)
    (sound : broken = none) (general : rd ≠ 15) :
    ∃ t k, exec i s = .next t ∧ LeavesResult s t sf rd (value s) k s.flagV := by
  rw [run, multiply, State.conditional_effect _ passes sound]
  refine ⟨_, s.draw.1.getLsbD 29, rfl, ?_⟩
  cases sf with
  | false => exact State.leavesResult_setReg general ..
  | true =>
    rw [if_pos rfl, State.multiplyFlags_eq]
    exact (State.leavesResult_setAluFlags_setReg general ..).of_draw

theorem lowReg_ne_pc (r : LowReg) : r.reg ≠ 15 := by
  revert r
  decide

theorem exec_thumbMul (rs rd : LowReg) (s : State) : exec (.thumbMul rs rd) s =
    s.unconditional (thumbMulRestriction rs rd) (fun s =>
      thumbWrite rd (logical (s.reg rd.reg * s.reg rs.reg) (s.draw.1.getLsbD 29) s.flagV) s.draw.2) := rfl

/-- Thumb MUL leaves the same result, always with its flags. -/
theorem thumbMul_leaves {s : State} {rs rd : LowReg} (sound : thumbMulRestriction rs rd = none) :
    ∃ t k, exec (.thumbMul rs rd) s = .next t ∧
      LeavesResult s t true rd.reg (s.reg rd.reg * s.reg rs.reg) k s.flagV := by
  rw [exec_thumbMul, State.unconditional_effect _ sound]
  exact ⟨_, s.draw.1.getLsbD 29, rfl, (State.leavesResult_setAluFlags_setReg (lowReg_ne_pc rd) ..).of_draw⟩

/-! The words the model computes, as the exact naturals narrowed to 32 bits. -/

theorem mul_eq_ofNat (x y : Word) : x * y = BitVec.ofNat 32 (x.toNat * y.toNat) := by
  simp [BitVec.ofNat_mul]

theorem mul_add_eq_ofNat (x y z : Word) : x * y + z = BitVec.ofNat 32 (x.toNat * y.toNat + z.toNat) := by
  simp [BitVec.ofNat_add, BitVec.ofNat_mul]

/-- A result left with V as before, told by the bits of the register that holds it, and C left open. -/
theorem LeavesResult.multiplied {s t : State} {sf : Bool} {d : Reg} {v : Word} {k : Bool} {n : Nat}
    (h : LeavesResult s t sf d v k s.flagV) (value : v = BitVec.ofNat 32 n) :
    t.reg d = BitVec.ofNat 32 n ∧ t.pc = s.pc + s.len ∧ OnlyRegisters [phys s.mode d] s t ∧
      if sf then t.flagN = (t.reg d).getLsbD 31 ∧ t.flagZ = (t.reg d == 0) ∧ t.flagV = s.flagV
      else t.cpsr = s.cpsr := by
  obtain ⟨result, pc, only, flags⟩ := h
  refine ⟨result.trans value, pc, only, ?_⟩
  cases sf with
  | false => exact flags
  | true =>
    obtain ⟨negative, zero, -, overflow⟩ := flags
    rw [result]
    exact ⟨negative.trans v.msb_eq_getLsbD_last, zero, overflow⟩

/-- Settles O14: the three forms leave one result, with a carry that is free. -/
theorem multiplyResult : Obligations.MultiplyResult := by
  intro s c sf rd rn rs rm ls ld passes p member sound
  simp only [List.mem_cons, List.not_mem_nil, or_false] at member
  rcases member with rfl | rfl | rfl
  · obtain ⟨t, k, run, leaves⟩ := multiply_leaves (exec_armMul ..) passes sound (mulRestriction_iff.1 sound).1
    exact ⟨t, run, leaves.multiplied (mul_eq_ofNat ..)⟩
  · obtain ⟨t, k, run, leaves⟩ := multiply_leaves (exec_armMla ..) passes sound (mulRestriction_iff.1 sound).1
    exact ⟨t, run, leaves.multiplied (mul_add_eq_ofNat ..)⟩
  · obtain ⟨t, k, run, leaves⟩ := thumbMul_leaves (s := s) sound
    exact ⟨t, run, leaves.multiplied (mul_eq_ofNat ..)⟩

/-! ## The long multiplies (R272 to R275) -/

/-- An instruction that leaves a value of 64 bits in two registers, with S = 1 its N and Z, and goes on. -/
def LeavesPair (s t : State) (sf : Bool) (hi lo : Reg) (p : BitVec 64) : Prop :=
  t.reg hi = p.extractLsb' 32 32 ∧ t.reg lo = p.extractLsb' 0 32 ∧ t.pc = s.pc + s.len ∧
    OnlyRegisters [phys s.mode hi, phys s.mode lo] s t ∧
    if sf then t.flagN = p.msb ∧ t.flagZ = (p == 0) else t.cpsr = s.cpsr

section
variable {hi lo : Reg}

/-- A value in two different registers, without the flags. -/
theorem State.leavesPair_setReg (hiGeneral : hi ≠ 15) (loGeneral : lo ≠ 15) (distinct : hi ≠ lo) (p : BitVec 64)
    (s : State) :
    LeavesPair s ((s.setReg hi (p.extractLsb' 32 32)).setReg lo (p.extractLsb' 0 32)).advance false hi lo p := by
  have high := s.onlyRegisters_setReg hi (p.extractLsb' 32 32)
  have low := (s.setReg hi (p.extractLsb' 32 32)).onlyRegisters_setReg lo (p.extractLsb' 0 32)
  rw [State.mode_setReg] at low
  refine ⟨?_, ?_, ?_, ?_, ?_⟩
  · rw [State.reg_advance _ hiGeneral, State.reg_setReg _ _ _ _ loGeneral, if_neg distinct,
      State.reg_setReg _ _ _ _ hiGeneral, if_pos rfl]
  · rw [State.reg_advance _ loGeneral, State.reg_setReg _ _ _ _ loGeneral, if_pos rfl]
  · simp
  · exact ((high.mono (by simp)).trans (low.mono (by simp))).trans
      ((State.onlyRegisters_advance _).mono (List.nil_subset _))
  · simp

/-- A value in two different registers, with its flags. -/
theorem State.leavesPair_longMultiplyFlags (hiGeneral : hi ≠ 15) (loGeneral : lo ≠ 15) (distinct : hi ≠ lo)
    (p : BitVec 64) (s : State) :
    LeavesPair s (((s.longMultiplyFlags p).setReg hi (p.extractLsb' 32 32)).setReg lo (p.extractLsb' 0 32)).advance
      true hi lo p := by
  obtain ⟨high, low, pc, only, cpsr⟩ := State.leavesPair_setReg hiGeneral loGeneral distinct p (s.longMultiplyFlags p)
  have mode : (s.longMultiplyFlags p).mode = s.mode := State.mode_setFlags ..
  have len : (s.longMultiplyFlags p).len = s.len := State.len_setFlags ..
  have flagged : OnlyRegisters [] s (s.longMultiplyFlags p) :=
    s.onlyRegisters_draw.trans (State.onlyRegisters_setFlags ..)
  obtain ⟨negative, zero, -, -⟩ := (State.flags_setFlags ..).congr cpsr
  rw [mode] at only
  exact ⟨high, low, pc.trans (congrArg (s.pc + ·) len), (flagged.mono (List.nil_subset _)).trans only, negative, zero⟩

end

section
variable (c : Cond) (sf : Bool) (hi lo rs rm : Reg) (s : State)

theorem exec_armUmull : exec (.armUmull c sf hi lo rs rm) s =
    multiplyLong c sf (longMulRestriction hi lo rs rm) hi lo
      (fun s => (s.reg rm).zeroExtend 64 * (s.reg rs).zeroExtend 64) s := rfl

theorem exec_armUmlal : exec (.armUmlal c sf hi lo rs rm) s =
    multiplyLong c sf (longMulRestriction hi lo rs rm) hi lo
      (fun s => (s.reg rm).zeroExtend 64 * (s.reg rs).zeroExtend 64 + s.pair hi lo) s := rfl

theorem exec_armSmull : exec (.armSmull c sf hi lo rs rm) s =
    multiplyLong c sf (longMulRestriction hi lo rs rm) hi lo
      (fun s => (s.reg rm).signExtend 64 * (s.reg rs).signExtend 64) s := rfl

theorem exec_armSmlal : exec (.armSmlal c sf hi lo rs rm) s =
    multiplyLong c sf (longMulRestriction hi lo rs rm) hi lo
      (fun s => (s.reg rm).signExtend 64 * (s.reg rs).signExtend 64 + s.pair hi lo) s := rfl

end

/-- The long multiplies leave their value in RdHi and RdLo. -/
theorem multiplyLong_leaves {s : State} {c : Cond} {i : Instr} {sf : Bool} {hi lo rs rm : Reg}
    {value : State → BitVec 64}
    (run : exec i s = multiplyLong c sf (longMulRestriction hi lo rs rm) hi lo value s)
    (passes : s.passes c = true) (sound : longMulRestriction hi lo rs rm = none) :
    ∃ t, exec i s = .next t ∧ LeavesPair s t sf hi lo (value s) := by
  obtain ⟨hiGeneral, loGeneral, -, -, distinct, -, -⟩ := longMulRestriction_iff.1 sound
  rw [run, multiplyLong, State.conditional_effect _ passes sound]
  refine ⟨_, rfl, ?_⟩
  cases sf with
  | false => exact State.leavesPair_setReg hiGeneral loGeneral distinct _ s
  | true => exact State.leavesPair_longMultiplyFlags hiGeneral loGeneral distinct _ s

/-! The words the model computes, as the exact integers narrowed to 64 bits. -/

theorem zeroExtend_mul_eq_ofInt (x y : Word) :
    x.zeroExtend 64 * y.zeroExtend 64 = BitVec.ofInt 64 (x.toNat * y.toNat) := by
  simp [BitVec.ofInt_mul]

theorem signExtend_mul_eq_ofInt (x y : Word) :
    x.signExtend 64 * y.signExtend 64 = BitVec.ofInt 64 (x.toInt * y.toInt) := by
  rw [BitVec.ofInt_mul]
  rfl

theorem zeroExtend_mul_add_eq_ofInt (x y : Word) (z : BitVec 64) :
    x.zeroExtend 64 * y.zeroExtend 64 + z = BitVec.ofInt 64 (x.toNat * y.toNat + z.toNat) := by
  rw [BitVec.ofInt_add, ← zeroExtend_mul_eq_ofInt, BitVec.ofInt_natCast, BitVec.ofNat_toNat, BitVec.setWidth_eq]

theorem signExtend_mul_add_eq_ofInt (x y : Word) (z : BitVec 64) :
    x.signExtend 64 * y.signExtend 64 + z = BitVec.ofInt 64 (x.toInt * y.toInt + z.toInt) := by
  rw [BitVec.ofInt_add, ← signExtend_mul_eq_ofInt, BitVec.ofInt_toInt]

/-- The two halves of a value are the value. -/
theorem append_halves (p : BitVec 64) : p.extractLsb' 32 32 ++ p.extractLsb' 0 32 = p :=
  (extract_join p 0 32 32).trans BitVec.extractLsb'_eq_self

theorem beq_zero_eq_halves (p : BitVec 64) :
    (p == 0) = (p.extractLsb' 32 32 == 0 && p.extractLsb' 0 32 == 0) := by
  rw [Bool.eq_iff_iff, Bool.and_eq_true, beq_iff_eq, beq_iff_eq, beq_iff_eq]
  constructor
  · rintro rfl
    exact ⟨BitVec.extractLsb'_zero, BitVec.extractLsb'_zero⟩
  · rintro ⟨high, low⟩
    rw [← append_halves p, high, low]
    rfl

/-- Bit 63 of a value is bit 31 of its upper half. -/
theorem msb_eq_upper_half (p : BitVec 64) : p.msb = (p.extractLsb' 32 32).getLsbD 31 := by
  rw [BitVec.getLsbD_extractLsb', BitVec.msb_eq_getLsbD_last]
  rfl

/-- A value left in two registers, told by the registers' bits. -/
theorem LeavesPair.multiplied {s t : State} {sf : Bool} {hi lo : Reg} {p : BitVec 64} {z : Int}
    (h : LeavesPair s t sf hi lo p) (value : p = BitVec.ofInt 64 z) :
    t.reg hi ++ t.reg lo = BitVec.ofInt 64 z ∧ t.pc = s.pc + s.len ∧
      OnlyRegisters [phys s.mode hi, phys s.mode lo] s t ∧
      if sf then t.flagN = (t.reg hi).getLsbD 31 ∧ t.flagZ = (t.reg hi == 0 && t.reg lo == 0)
      else t.cpsr = s.cpsr := by
  obtain ⟨high, low, pc, only, flags⟩ := h
  rw [high, low]
  refine ⟨(append_halves p).trans value, pc, only, ?_⟩
  cases sf with
  | false => exact flags
  | true =>
    obtain ⟨negative, zero⟩ := flags
    exact ⟨negative.trans (msb_eq_upper_half p), zero.trans (beq_zero_eq_halves p)⟩

/-- Settles O15: the four forms leave their value in two registers. -/
theorem longMultiplyResult : Obligations.LongMultiplyResult := by
  intro s c sf hi lo rs rm passes old p member sound
  simp only [List.mem_cons, List.not_mem_nil, or_false] at member
  rcases member with rfl | rfl | rfl | rfl
  · obtain ⟨t, run, leaves⟩ := multiplyLong_leaves (exec_armUmull ..) passes sound
    exact ⟨t, run, leaves.multiplied (zeroExtend_mul_eq_ofInt ..)⟩
  · obtain ⟨t, run, leaves⟩ := multiplyLong_leaves (exec_armUmlal ..) passes sound
    exact ⟨t, run, leaves.multiplied (zeroExtend_mul_add_eq_ofInt ..)⟩
  · obtain ⟨t, run, leaves⟩ := multiplyLong_leaves (exec_armSmull ..) passes sound
    exact ⟨t, run, leaves.multiplied (signExtend_mul_eq_ofInt ..)⟩
  · obtain ⟨t, run, leaves⟩ := multiplyLong_leaves (exec_armSmlal ..) passes sound
    exact ⟨t, run, leaves.multiplied (signExtend_mul_add_eq_ofInt ..)⟩

end Sys2Proof.Machine
end

section
/-! # The status register instructions (R195, R280 to R283) -/

namespace Sys2Proof.Machine

/-! ## MRS (R280) -/

theorem exec_armMrs (c : Cond) (spsr : Bool) (rd : Reg) (s : State) :
    exec (.armMrs c spsr rd) s = execArmMrs c spsr rd s := rfl

/-- The bits the spec gives of a status word that was read (R36). -/
theorem readPsr_flags (free psr : Word) : (readPsr free psr).extractLsb' 28 4 = psr.extractLsb' 28 4 := by
  rw [readPsr, extract_append_high _ _ 28 4 (by decide), extract_append_high _ _ 20 4 (by decide)]
  exact BitVec.extractLsb'_eq_self

theorem readPsr_control (free psr : Word) : (readPsr free psr).extractLsb' 0 8 = psr.extractLsb' 0 8 := by
  rw [readPsr, extract_append_low _ _ 0 8 (by decide)]
  exact BitVec.extractLsb'_eq_self

section
variable {s : State} {c : Cond} {rd : Reg} (passes : s.passes c = true) (general : rd ≠ 15)
include passes general

/-- MRS from a status register there is. -/
theorem State.mrs_reads {spsr : Bool} {psr : Word}
    (source : (if spsr then s.spsrOf s.mode else some s.cpsr) = some psr) :
    exec (.armMrs c spsr rd) s = .next (s.draw.2.setReg rd (readPsr s.draw.1 psr)).advance := by
  have source : (if spsr then s.spsr else some s.cpsr) = some psr := source
  rw [exec_armMrs, execArmMrs, State.conditional_effect _ passes (notPcRestriction_eq_none general)]
  simp only [source]

/-- MRS from the SPSR of a mode that has none (R37). -/
theorem State.mrs_refuses (missing : s.spsrOf s.mode = none) : exec (.armMrs c true rd) s = .refused .noSpsr := by
  have missing : s.spsr = none := missing
  rw [exec_armMrs, execArmMrs, State.conditional_effect _ passes (notPcRestriction_eq_none general)]
  simp only [if_true, missing]

end

/-- Settles O16: what MRS leaves is a result without flags, whose given bits are the status register's. -/
theorem mrsReadsStatus : Obligations.MrsReadsStatus := by
  intro s c rd passes general
  refine ⟨fun sp psr source => ?_, State.mrs_refuses passes general⟩
  obtain ⟨result, pc, only, cpsr⟩ :=
    (State.leavesResult_setReg general (readPsr s.draw.1 psr) false false s.draw.2).of_draw
  refine ⟨_, State.mrs_reads passes general source, ?_, ?_, pc, cpsr, only⟩
  · rw [result, readPsr_flags]
  · rw [result, readPsr_control]

/-! ## The field mask (R195, R283) -/

/-- The bytes of `psrMask` are the bits of the field mask. -/
theorem psrMask_byte (mask : BitVec 4) {j : Nat} (hj : j < 4) :
    (psrMask mask).extractLsb' (8 * j) 8 = if mask.getLsbD j then BitVec.allOnes 8 else 0 := by
  revert hj j mask
  decide

theorem psrMask_not (mask : BitVec 4) : ~~~psrMask mask = psrMask (~~~mask) := by
  revert mask
  decide

/-- A byte of a merged status word is the operand's where the field mask selects it, else the old word's. -/
theorem mergePsr_byte (psr operand : Word) (mask : BitVec 4) {j : Nat} (hj : j < 4) :
    (mergePsr psr operand (psrMask mask)).extractLsb' (8 * j) 8 =
      if mask.getLsbD j then operand.extractLsb' (8 * j) 8 else psr.extractLsb' (8 * j) 8 := by
  rw [mergePsr, psrMask_not, BitVec.extractLsb'_or, BitVec.extractLsb'_and, BitVec.extractLsb'_and,
    psrMask_byte mask hj, psrMask_byte (~~~mask) hj, BitVec.getLsbD_not, decide_eq_true hj, Bool.true_and]
  cases mask.getLsbD j <;> simp [-BitVec.reduceAllOnes]

/-- The fields of the CPSR an MSR writes where no debugger is attached: in User mode the flags alone (R38). -/
def State.cpsrFields (mask : BitVec 4) (s : State) : BitVec 4 := if s.privileged then mask else mask &&& 8

theorem State.cpsrMask_eq {s : State} (mask : BitVec 4) (ack : s.dbg.ack = false) :
    s.cpsrMask mask = psrMask (s.cpsrFields mask) := by
  have flagsOnly : ∀ m : BitVec 4, psrMask m &&& 0xff000000 = psrMask (m &&& 8) := by decide
  rw [State.cpsrMask, State.cpsrFields, ack, Bool.or_false, flagsOnly]
  cases s.privileged <;> rfl

theorem State.cpsrFields_getLsbD (mask : BitVec 4) (s : State) {j : Nat} (hj : j < 4) :
    (s.cpsrFields mask).getLsbD j = (mask.getLsbD j && (s.privileged || j == 3)) := by
  rw [State.cpsrFields]
  cases s.privileged <;> revert mask j <;> decide

/-- T and the mode are bits of the control byte. -/
theorem getLsbD_five_of_control {x y : Word} (control : x.extractLsb' 0 8 = y.extractLsb' 0 8) :
    x.getLsbD 5 = y.getLsbD 5 := by
  simpa using congrArg (BitVec.getLsbD · 5) control

theorem legalMode_of_control {x y : Word} (control : x.extractLsb' 0 8 = y.extractLsb' 0 8) :
    legalMode x = legalMode y := by
  have mode := congrArg (BitVec.extractLsb' 0 5) control
  rw [extract_extract _ 0 8 0 5 (by decide), extract_extract _ 0 8 0 5 (by decide)] at mode
  rw [legalMode, modeField, legalMode, modeField, mode]

/-! ## MSR (R281 to R283) -/

/-- Both forms of MSR write their operand. -/
theorem State.exec_msr {s : State} {c : Cond} {spsr : Bool} {mask rot : BitVec 4} {rm : Reg} {imm : BitVec 8}
    {p : Instr × Word} (passes : s.passes c = true)
    (member : p ∈ [(Instr.armMsrReg c spsr mask rm, s.reg rm),
      (.armMsrImm c spsr mask rot imm, (imm.zeroExtend 32).rotateRight (2 * rot.toNat))])
    (sound : p.1.broken = none) : exec p.1 s = s.msr spsr mask p.2 := by
  simp only [List.mem_cons, List.not_mem_nil, or_false] at member
  rcases member with rfl | rfl
  · exact State.conditional_effect (fun s => s.msr spsr mask (s.reg rm)) passes sound
  · exact State.conditional_effect (fun s => s.msr spsr mask (rotatedImmediate rot imm)) passes sound

/-- The CPSR an MSR forms (R283). -/
def State.msrCpsr (mask : BitVec 4) (operand : Word) (s : State) : Word :=
  mergePsr s.cpsr operand (s.cpsrMask mask)

theorem State.msrCpsr_byte {s : State} (mask : BitVec 4) (operand : Word) (ack : s.dbg.ack = false) {j : Nat}
    (hj : j < 4) : (s.msrCpsr mask operand).extractLsb' (8 * j) 8 =
      if mask.getLsbD j && (s.privileged || j == 3) then operand.extractLsb' (8 * j) 8
      else s.cpsr.extractLsb' (8 * j) 8 := by
  rw [State.msrCpsr, State.cpsrMask_eq mask ack, mergePsr_byte _ _ _ hj, State.cpsrFields_getLsbD mask s hj]

/-- Another CPSR and the next instruction: nothing else of the machine changes. -/
theorem State.onlyCore_withCpsr_advance (psr : Word) (s : State) :
    OnlyCore [] s (State.advance { s with cpsr := psr }) where
  regs := fun _ _ => rfl
  system := by constructor <;> rfl
  memsys := rfl
  bytes := fun _ => rfl

/-! What the CPSR's T and mode decide: the two stuck states (R33, R35), or the next instruction. -/

section
variable {s : State} {mask : BitVec 4} {operand : Word}

theorem State.writeCpsr_of_changedT (changed : (s.msrCpsr mask operand).getLsbD 5 ≠ s.cpsr.getLsbD 5) :
    s.writeCpsr mask operand = { s with stuck := some .stateBitChanged } := if_pos (bne_iff_ne.2 changed)

variable (kept : (s.msrCpsr mask operand).getLsbD 5 = s.cpsr.getLsbD 5)
include kept

theorem State.writeCpsr_of_keptT : s.writeCpsr mask operand =
    if legalMode (s.msrCpsr mask operand) then State.advance { s with cpsr := s.msrCpsr mask operand }
    else { s with stuck := some .illegalMode } :=
  if_neg fun changed => bne_iff_ne.1 changed kept

theorem State.writeCpsr_of_illegalMode (illegal : legalMode (s.msrCpsr mask operand) = false) :
    s.writeCpsr mask operand = { s with stuck := some .illegalMode } := by
  rw [State.writeCpsr_of_keptT kept, illegal]
  rfl

theorem State.writeCpsr_of_legalMode (legal : legalMode (s.msrCpsr mask operand) = true) :
    (s.writeCpsr mask operand).cpsr = s.msrCpsr mask operand ∧ (s.writeCpsr mask operand).pc = s.pc + s.len ∧
      OnlyCore [] s (s.writeCpsr mask operand) := by
  rw [State.writeCpsr_of_keptT kept, if_pos legal]
  refine ⟨rfl, ?_, s.onlyCore_withCpsr_advance _⟩
  rw [State.advance_pc, State.len, State.thumb, kept]
  rfl

end

/-- Settles O17: T and the mode of the new CPSR are the operand's where the control byte is written, else the
old ones. -/
theorem msrWritesCpsr : Obligations.MsrWritesCpsr := by
  intro s c mask rm rot imm passes ack legal writes p member sound
  have run : exec p.1 s = .next (s.writeCpsr mask p.2) := State.exec_msr passes member sound
  have control := State.msrCpsr_byte mask p.2 ack (show 0 < 4 by decide)
  have goesOn (kept : (s.msrCpsr mask p.2).getLsbD 5 = s.cpsr.getLsbD 5)
      (lawful : legalMode (s.msrCpsr mask p.2) = true) :
      ∃ t, exec p.1 s = .next t ∧ t.pc = s.pc + s.len ∧ OnlyCore [] s t ∧
        ∀ j < 4, t.cpsr.extractLsb' (8 * j) 8 =
          if writes j then p.2.extractLsb' (8 * j) 8 else s.cpsr.extractLsb' (8 * j) 8 := by
    obtain ⟨cpsr, pc, only⟩ := State.writeCpsr_of_legalMode kept lawful
    exact ⟨_, run, pc, only, fun j hj => cpsr ▸ State.msrCpsr_byte mask p.2 ack hj⟩
  by_cases written : writes 0 = true
  · have control := control.trans (if_pos written)
    have sameT := getLsbD_five_of_control control
    have sameMode := legalMode_of_control control
    simp only [written, true_and]
    split_ifs with changed illegal
    · rw [run, State.writeCpsr_of_changedT (sameT ▸ changed)]
    · rw [run, State.writeCpsr_of_illegalMode (sameT.trans (not_not.1 changed)) (sameMode.trans illegal)]
    · exact goesOn (sameT.trans (not_not.1 changed)) (sameMode.trans (Bool.eq_true_of_not_eq_false illegal))
  · have control := control.trans (if_neg written)
    rw [if_neg fun h => written h.1, if_neg fun h => written h.1]
    exact goesOn (getLsbD_five_of_control control) ((legalMode_of_control control).trans legal)

/-! ## The SPSRs (R37, R283) -/

/-- The SPSRs after one was written: the one written, every other as before. -/
theorem State.spsrOf_setSpsrOf_same {s : State} {m : Mode} (has : s.spsrOf m ≠ none) (v : Word) :
    (s.setSpsrOf m v).spsrOf m = some v := by
  cases m with
  | usr | sys => exact absurd rfl has
  | fiq | irq | svc | abt | und => rfl

theorem State.spsrOf_setSpsrOf_ne {m n : Mode} (other : n ≠ m) (v : Word) (s : State) :
    (s.setSpsrOf m v).spsrOf n = s.spsrOf n := by
  cases m with
  | usr | sys => rfl
  | fiq | irq | svc | abt | und => cases n <;> simp_all [State.spsrOf, State.setSpsrOf]

/-- A write of an SPSR and the next instruction change nothing outside the core's registers. -/
theorem State.sameOutside_setSpsrOf_advance (m : Mode) (v : Word) (s : State) :
    SameOutside s (s.setSpsrOf m v).advance := by
  constructor <;> simp [State.byteAt, State.settled]

/-- Settles O18. -/
theorem msrWritesSpsr : Obligations.MsrWritesSpsr := by
  intro s c mask rm rot imm passes p member sound
  have run := State.exec_msr passes member sound
  rw [State.msr, if_pos rfl, State.spsr] at run
  cases saved : s.spsrOf s.mode with
  | none => simpa only [saved] using run
  | some old =>
    have has : s.spsrOf s.mode ≠ none := by simp [saved]
    simp only [saved] at run
    refine ⟨_, _, run, ?_, ?_, ?_, State.sameOutside_setSpsrOf_advance .., State.spsrOf_setSpsrOf_same has _,
      fun m other => State.spsrOf_setSpsrOf_ne other .., fun j hj => mergePsr_byte _ _ _ hj⟩
    · simp [State.len, State.thumb]
    · simp
    · simp

end Sys2Proof.Machine
end

section
/-! # Branch and exchange (R292, R429, R549) -/

namespace Sys2Proof.Machine

/-! ## CPSR.T written (R33) -/

/-- The bits of the CPSR after T was written: T is the new one, every other bit is as before. -/
theorem State.setThumb_getLsbD (b : Bool) (s : State) (j : Nat) :
    (s.setThumb b).cpsr.getLsbD j = if j = 5 then b else s.cpsr.getLsbD j := by
  rw [State.setThumb, BitVec.getLsbD_append, BitVec.getLsbD_append]
  rcases Nat.lt_trichotomy j 5 with below | rfl | above
  · simp [below, below.ne]
  · cases b <;> rfl
  · have inside : s.cpsr.getLsbD j = true → j - 5 - 1 < 26 := fun one => by
      have bound := BitVec.lt_of_getLsbD one
      omega
    rw [if_neg (by omega), if_neg (by omega), if_neg (by omega), BitVec.getLsbD_extractLsb',
      show 6 + (j - 5 - 1) = j by omega]
    simpa using inside

theorem State.setThumb_thumb (b : Bool) (s : State) : (s.setThumb b).thumb = b :=
  (s.setThumb_getLsbD b 5).trans (if_pos rfl)

/-! ## The exchange -/

/-- The low bits that name an ARM-state address that is no multiple of four (R292). -/
theorem extract_two_eq_two_iff (v : Word) :
    v.extractLsb' 0 2 = 2#2 ↔ v.getLsbD 0 = false ∧ v.getLsbD 1 = true := by
  have low : (v.extractLsb' 0 2).getLsbD 0 = v.getLsbD 0 := by simp
  have high : (v.extractLsb' 0 2).getLsbD 1 = v.getLsbD 1 := by simp
  have two : ∀ x : BitVec 2, x = 2#2 ↔ x.getLsbD 0 = false ∧ x.getLsbD 1 = true := by decide
  rw [two, low, high]

/-- The exchange is refused for such an address whose bit 1 counts, and for no other. -/
theorem State.exchange_eq (ignoreBit1 : Bool) (v : Word) (s : State) :
    s.exchange ignoreBit1 v =
      if v.getLsbD 0 = false ∧ v.getLsbD 1 = true ∧ ¬ ignoreBit1 = true then .refused .bxMisaligned
      else .next ((s.setThumb (v.getLsbD 0)).branchTo v) := by
  simp only [State.exchange, Bool.and_eq_true, extract_two_eq_two_iff, Bool.not_eq_true',
    Bool.not_eq_true, decide_eq_true_eq, and_assoc]

/-- An exchange that is not refused writes T and the program counter alone. -/
theorem State.setThumb_branchTo_leaves (v : Word) (s : State) :
    let t := (s.setThumb (v.getLsbD 0)).branchTo v
    t.thumb = v.getLsbD 0 ∧ t.pc = v &&& (if v.getLsbD 0 then 0xfffffffe else 0xfffffffc) ∧ t.pipe = [] ∧
      (∀ j, j ≠ 5 → t.cpsr.getLsbD j = s.cpsr.getLsbD j) ∧ OnlyCore [] s t := by
  refine ⟨s.setThumb_thumb _, ?_, rfl, fun j other => ?_, s.onlyCore_branchTo _ v⟩
  · rw [State.branchTo_pc, State.setThumb_thumb, alignPc_eq_and]
  · rw [State.branchTo_cpsr, State.setThumb_getLsbD, if_neg other]

/-! ## The instructions -/

theorem exec_armBx (c : Cond) (rm : Reg) (s : State) :
    exec (.armBx c rm) s = s.conditional c (notPcRestriction rm) fun s => s.exchange false (s.reg rm) := rfl

theorem exec_thumbBx (rm : Reg) (s : State) :
    exec (.thumbBx rm) s = s.exchange (s.dbg.ack && rm == 15) (s.reg rm) := rfl

/-- Both forms are the exchange; bit 1 is ignored for the Thumb BX PC in debug state alone (R549). -/
theorem State.exec_bx {s : State} {c : Cond} {rm : Reg} {i : Instr}
    (form : (i = .armBx c rm ∧ s.passes c = true ∧ rm ≠ 15) ∨ i = .thumbBx rm) :
    ∃ ignoreBit1, exec i s = s.exchange ignoreBit1 (s.reg rm) ∧
      (ignoreBit1 = true ↔ s.dbg.ack = true ∧ i = .thumbBx 15) := by
  rcases form with ⟨rfl, passes, general⟩ | rfl
  · refine ⟨false, ?_, by simp⟩
    rw [exec_armBx, State.conditional_effect _ passes (notPcRestriction_eq_none general)]
  · exact ⟨_, exec_thumbBx rm s, by simp⟩

/-- Settles O21. -/
theorem branchExchange : Obligations.BranchExchange := by
  intro s c rm v i form
  obtain ⟨ignoreBit1, run, ignored⟩ := State.exec_bx form
  simp only [State.exchange_eq, ignored] at run
  split
  · next misaligned => exact run.trans (if_pos misaligned)
  · next aligned => exact ⟨_, run.trans (if_neg aligned), s.setThumb_branchTo_leaves v⟩

end Sys2Proof.Machine
end

section
/-! # Loads and stores of one datum (R300 to R319, R450 to R467) -/

namespace Sys2Proof.Machine

/-! ## The registers of a transfer (R318) -/

/-- What R318 asks of a transfer's registers: the base written back is neither r15 nor Rd, and Rd of a halfword
transfer is not r15. -/
structure Transfer.Regular (p : Transfer) : Prop where
  base : ∀ rn x, p.base = some (rn, x) → rn ≠ 15 ∧ p.rd ≠ rn
  half : p.size = .half → p.rd ≠ 15

/-- Addressing modes 2 and 3 write back Rn, or nothing (R189, R190). -/
theorem State.modeAddress_base {s : State} {index : Index} {up : Bool} {rn : Reg} {off : Word} {i : Reg} {x : Word}
    (h : (s.modeAddress index up rn off).2 = some (i, x)) : index.writesBack = true ∧ i = rn := by
  cases index with
  | offset => exact nomatch h
  | pre | post => exact ⟨rfl, (Prod.mk.inj (Option.some.inj h)).1.symm⟩

theorem State.regular_modeAddress {s : State} {i : Instr} {n : Size} {a : Word} {index : Index} {up : Bool}
    {rn rd : Reg} {off : Word} {priv : Bool} {value : Word → Word}
    (apart : index.writesBack = true → rn ≠ 15 ∧ rd ≠ rn) (half : n = .half → rd ≠ 15) :
    Transfer.Regular ⟨i, n, a, (s.modeAddress index up rn off).2, priv, rd, value⟩ where
  base := fun r x h => by
    obtain ⟨written, rfl⟩ := State.modeAddress_base h
    exact apart written
  half := half

theorem Transfer.regular_thumb {i : Instr} {n : Size} {a : Word} {priv : Bool} {rd : LowReg} {value : Word → Word} :
    Transfer.Regular ⟨i, n, a, none, priv, rd.reg, value⟩ where
  base := nofun
  half := fun _ => lowReg_ne_pc rd

theorem mode2_apart {wb : Bool} {rn rd : Reg} {off : Offset2} (sound : mode2Restriction wb rn rd off = none) :
    wb = true → rn ≠ 15 ∧ rd ≠ rn := (mode2Restriction_iff.1 sound).1

theorem mode2Data_apart {wb : Bool} {rn rd : Reg} {off : Offset2}
    (sound : mode2DataRestriction wb rn rd off = none) : wb = true → rn ≠ 15 ∧ rd ≠ rn :=
  mode2_apart (mode2DataRestriction_iff.1 sound).2

theorem State.regular_mode3 {s : State} {i : Instr} {n : Size} {a : Word} {index : Index} {up : Bool} {rn rd : Reg}
    {off : Offset3} {priv : Bool} {value : Word → Word} (sound : mode3Restriction index.writesBack rn rd off = none) :
    Transfer.Regular ⟨i, n, a, (s.modeAddress index up rn (s.offset3 off)).2, priv, rd, value⟩ := by
  obtain ⟨data, apart, -⟩ := mode3Restriction_iff.1 sound
  exact State.regular_modeAddress apart fun _ => data

theorem State.armLoads2_regular {s : State} {c : Cond} {index : Index} {up : Bool} {rn rd : Reg} {off : Offset2}
    {p : Transfer} (member : p ∈ s.armLoads2 c index up rn rd off) (sound : p.instr.broken = none) : p.Regular := by
  simp only [State.armLoads2, List.mem_cons, List.not_mem_nil, or_false] at member
  rcases member with rfl | rfl | rfl | rfl
  · exact State.regular_modeAddress (mode2_apart sound) nofun
  · exact State.regular_modeAddress (mode2Data_apart sound) nofun
  · exact State.regular_modeAddress (fun _ => mode2Data_apart sound rfl) nofun
  · exact State.regular_modeAddress (fun _ => mode2Data_apart sound rfl) nofun

theorem State.armStores2_regular {s : State} {c : Cond} {index : Index} {up : Bool} {rn rd : Reg} {off : Offset2}
    {p : Transfer} (member : p ∈ s.armStores2 c index up rn rd off) (sound : p.instr.broken = none) : p.Regular := by
  simp only [State.armStores2, List.mem_cons, List.not_mem_nil, or_false] at member
  rcases member with rfl | rfl | rfl | rfl
  · exact State.regular_modeAddress (mode2_apart sound) nofun
  · exact State.regular_modeAddress (mode2Data_apart sound) nofun
  · exact State.regular_modeAddress (fun _ => mode2Data_apart sound rfl) nofun
  · exact State.regular_modeAddress (fun _ => mode2Data_apart sound rfl) nofun

theorem State.armLoads3_regular {s : State} {c : Cond} {index : Index} {up : Bool} {rn rd : Reg} {off : Offset3}
    {p : Transfer} (member : p ∈ s.armLoads3 c index up rn rd off) (sound : p.instr.broken = none) : p.Regular := by
  simp only [State.armLoads3, List.mem_cons, List.not_mem_nil, or_false] at member
  rcases member with rfl | rfl | rfl
  · exact State.regular_mode3 sound
  · exact State.regular_mode3 sound
  · exact State.regular_mode3 sound

theorem State.armStores3_regular {s : State} {c : Cond} {index : Index} {up : Bool} {rn rd : Reg} {off : Offset3}
    {p : Transfer} (member : p ∈ s.armStores3 c index up rn rd off) (sound : p.instr.broken = none) : p.Regular := by
  simp only [State.armStores3, List.mem_singleton] at member
  subst member
  exact State.regular_mode3 sound

theorem State.thumbLoads_regular {s : State} {ro rb rd : LowReg} {imm5 : BitVec 5} {word8 : BitVec 8} {p : Transfer}
    (member : p ∈ s.thumbLoads ro rb rd imm5 word8) : p.Regular := by
  simp only [State.thumbLoads, List.mem_cons, List.not_mem_nil, or_false] at member
  rcases member with rfl | rfl | rfl | rfl | rfl | rfl | rfl | rfl | rfl | rfl <;> exact Transfer.regular_thumb

theorem State.thumbStores_regular {s : State} {ro rb rd : LowReg} {imm5 : BitVec 5} {word8 : BitVec 8} {p : Transfer}
    (member : p ∈ s.thumbStores ro rb rd imm5 word8) : p.Regular := by
  simp only [State.thumbStores, List.mem_cons, List.not_mem_nil, or_false] at member
  rcases member with rfl | rfl | rfl | rfl | rfl | rfl | rfl <;> exact Transfer.regular_thumb

theorem State.IsLoad.regular {s : State} {p : Transfer} (h : s.IsLoad p) : p.Regular := by
  obtain ⟨sound, ⟨c, index, up, rn, rd, off, -, member⟩ | ⟨c, index, up, rn, rd, off, -, member⟩ |
    ⟨ro, rb, rd, imm5, word8, member⟩⟩ := h
  · exact State.armLoads2_regular member sound
  · exact State.armLoads3_regular member sound
  · exact State.thumbLoads_regular member

theorem State.IsStore.regular {s : State} {p : Transfer} (h : s.IsStore p) : p.Regular := by
  obtain ⟨sound, ⟨c, index, up, rn, rd, off, -, member⟩ | ⟨c, index, up, rn, rd, off, -, member⟩ |
    ⟨ro, rb, rd, imm5, word8, member⟩⟩ := h
  · exact State.armStores2_regular member sound
  · exact State.armStores3_regular member sound
  · exact State.thumbStores_regular member

/-! ## What an access leaves -/

theorem OnlyRegisters.onlyTransfer {ks : List (Fin 30)} {s t : State} (h : OnlyRegisters ks s t)
    (cpsr : t.cpsr = s.cpsr) : OnlyTransfer ks s t :=
  ⟨h.regs, cpsr, h.system, (sameTestRegs_iff ..).2 (congrArg _ h.memsys)⟩

theorem OnlyTransfer.trans {ks : List (Fin 30)} {s t u : State} (x : OnlyTransfer ks s t)
    (y : OnlyTransfer ks t u) : OnlyTransfer ks s u where
  regs := fun k out => (y.regs k out).trans (x.regs k out)
  cpsr := y.cpsr.trans x.cpsr
  system := x.system.trans y.system
  tests := (sameTestRegs_iff ..).2 (((sameTestRegs_iff ..).1 y.tests).trans ((sameTestRegs_iff ..).1 x.tests))

/-- An access of the memory system, and the model's free values, leave every register alone. -/
theorem State.onlyTransfer_access {s : State} {ms : MemSys} (tests : ms.testRegs = s.memsys.testRegs)
    (ks : List (Fin 30)) (draws : Nat) : OnlyTransfer ks s { s with memsys := ms, draws := draws } where
  regs := fun _ _ => rfl
  cpsr := rfl
  system := by constructor <;> rfl
  tests := (sameTestRegs_iff ..).2 tests

theorem MemSys.Wrote.testRegs {big : Bool} {n : Size} {pa v : Word} {m m' : MemSys}
    (h : MemSys.Wrote big n pa v m m') : m'.testRegs = m.testRegs := by
  simp only [MemSys.testRegs, h.cacheVictim, h.cacheBase, h.cacheStep, h.c15c, h.tlbBase, h.tlbPreserve,
    h.ram2Pointer, h.c15m]

/-- Memory after a write is let through: the datum's bytes, and every other byte as before (R93). -/
theorem MemSys.Wrote.byteAt {s : State} {ms : MemSys} {n : Size} {pa v : Word} (q : s.Quiet)
    (h : MemSys.Wrote s.platform.bigEndian n pa v s.memsys ms) (a : Nat) :
    State.byteAt { s with memsys := ms } a = (storedByte s.platform.bigEndian n pa v a).getD (s.byteAt a) :=
  (congrArg (fun m : Memory => m.get a) h.settled).trans
    (Memory.get_store (MemSys.wf_settled q.calm q.canonical))

/-! ## The base, then Rd (R300, R317) -/

theorem State.writeBack_place (p : Transfer) (s : State) : s.writeBack p.place = p.writeBase s := by
  unfold State.writeBack Transfer.writeBase Transfer.place
  cases p.base <;> rfl

/-- The write-back changes the general registers alone. -/
theorem Transfer.writeBase_regs (p : Transfer) (s : State) : ∃ r, p.writeBase s = { s with regs := r } := by
  unfold Transfer.writeBase
  split
  · exact ⟨s.regs, rfl⟩
  · next rn v _ => exact ⟨_, s.withBase_regs rn (some v)⟩

@[simp] theorem Transfer.writeBase_pc (p : Transfer) (s : State) : (p.writeBase s).pc = s.pc := by
  obtain ⟨r, written⟩ := p.writeBase_regs s
  rw [written]

@[simp] theorem Transfer.writeBase_cpsr (p : Transfer) (s : State) : (p.writeBase s).cpsr = s.cpsr := by
  obtain ⟨r, written⟩ := p.writeBase_regs s
  rw [written]

@[simp] theorem Transfer.writeBase_dbg (p : Transfer) (s : State) : (p.writeBase s).dbg = s.dbg := by
  obtain ⟨r, written⟩ := p.writeBase_regs s
  rw [written]

@[simp] theorem Transfer.writeBase_memsys (p : Transfer) (s : State) : (p.writeBase s).memsys = s.memsys := by
  obtain ⟨r, written⟩ := p.writeBase_regs s
  rw [written]

@[simp] theorem Transfer.writeBase_thumb (p : Transfer) (s : State) : (p.writeBase s).thumb = s.thumb :=
  congrArg (·.getLsbD 5) (p.writeBase_cpsr s)

@[simp] theorem Transfer.writeBase_len (p : Transfer) (s : State) : (p.writeBase s).len = s.len := by
  rw [State.len_eq, State.len_eq, p.writeBase_thumb]

theorem State.reg_branchTo (v : Word) (s : State) {i : Reg} (h : i ≠ 15) : (s.branchTo v).reg i = s.reg i := by
  rw [State.reg, State.reg, if_neg h, if_neg h]
  rfl

/-- The base holds what was written back to it. -/
theorem Transfer.Regular.reg_writeBase {p : Transfer} (regular : p.Regular) {rn : Reg} {x : Word}
    (base : p.base = some (rn, x)) (s : State) : (p.writeBase s).reg rn = x := by
  have written : p.writeBase s = s.setReg rn x := by
    unfold Transfer.writeBase
    rw [base]
  rw [written, State.reg_setReg _ _ _ _ (regular.base rn x base).1, if_pos rfl]

theorem Transfer.onlyRegisters_writeBase (p : Transfer) (s : State) :
    OnlyRegisters (p.baseEntry s) s (p.writeBase s) := by
  unfold Transfer.baseEntry Transfer.writeBase
  split
  · exact s.onlyRegisters_refl
  · exact s.onlyRegisters_setReg ..

/-- The end of a store: the base written back, and on to the next instruction. -/
theorem Transfer.Regular.store_ends {p : Transfer} (regular : p.Regular) (s : State) :
    (p.writeBase s).advance.pc = s.pc + s.len ∧
      (∀ rn x, p.base = some (rn, x) → (p.writeBase s).advance.reg rn = x) ∧
      OnlyRegisters (p.baseEntry s) s (p.writeBase s).advance := by
  refine ⟨?_, fun rn x base => ?_, ?_⟩
  · simp
  · rw [State.reg_advance _ (regular.base rn x base).1, regular.reg_writeBase base]
  · exact (p.onlyRegisters_writeBase s).trans ((State.onlyRegisters_advance _).mono (List.nil_subset _))

/-- The registers a load writes: Rd, unless it is r15, and the base. -/
def Transfer.loadEntries (p : Transfer) (s : State) : List (Fin 30) :=
  (if p.rd = 15 then [] else [phys s.mode p.rd]) ++ p.baseEntry s

theorem Transfer.onlyRegisters_finish (p : Transfer) (v : Word) (s : State) :
    OnlyRegisters (p.loadEntries s) s ((p.writeBase s).finish p.rd v) := by
  have base : OnlyRegisters (p.loadEntries s) s (p.writeBase s) :=
    (p.onlyRegisters_writeBase s).mono (List.subset_append_right ..)
  unfold State.finish
  split
  · exact State.onlyRegisters_branchTo base v
  · next general =>
    have data : OnlyRegisters [phys s.mode p.rd] (p.writeBase s) ((p.writeBase s).setReg p.rd v) := by
      rw [← State.mode_congr (p.writeBase_cpsr s)]
      exact State.onlyRegisters_setReg ..
    have listed : [phys s.mode p.rd] ⊆ p.loadEntries s := by
      rw [Transfer.loadEntries, if_neg general]
      exact List.subset_append_left ..
    exact (base.trans (data.mono listed)).trans ((State.onlyRegisters_advance _).mono (List.nil_subset _))

theorem Transfer.finish_cpsr (p : Transfer) (v : Word) (s : State) :
    ((p.writeBase s).finish p.rd v).cpsr = s.cpsr := by
  unfold State.finish
  split
  · exact p.writeBase_cpsr s
  · exact (State.setReg_cpsr ..).trans (p.writeBase_cpsr s)

/-- The base after a load: Rd, written last, is another register (R318). -/
theorem Transfer.Regular.reg_finish_base {p : Transfer} (regular : p.Regular) {rn : Reg} {x : Word}
    (base : p.base = some (rn, x)) (v : Word) (s : State) : ((p.writeBase s).finish p.rd v).reg rn = x := by
  obtain ⟨general, apart⟩ := regular.base rn x base
  unfold State.finish
  split
  · rw [State.reg_branchTo _ _ general, regular.reg_writeBase base]
  · next data => rw [State.reg_advance _ general, State.reg_setReg _ _ _ _ data, if_neg (Ne.symm apart),
      regular.reg_writeBase base]

/-- Rd after a load, or the branch when Rd is r15 (R28, R319). -/
theorem Transfer.finish_data (p : Transfer) (v : Word) (s : State) :
    if p.rd = 15 then
      ((p.writeBase s).finish p.rd v).pc = v &&& (if s.thumb then 0xfffffffe else 0xfffffffc) ∧
        ((p.writeBase s).finish p.rd v).pipe = []
    else ((p.writeBase s).finish p.rd v).pc = s.pc + s.len ∧ ((p.writeBase s).finish p.rd v).reg p.rd = v := by
  unfold State.finish
  split
  · rw [State.branchTo_pc, alignPc_eq_and, p.writeBase_thumb]
    exact ⟨rfl, rfl⟩
  · next general =>
    constructor
    · simp
    · rw [State.reg_advance _ general, State.reg_setReg _ _ _ _ general, if_pos rfl]

/-! ## Loads (R300, R311, R450) -/

/-- A load that is let through gives this value and finishes; where it is no halfword at an odd address, the value
is the transfer's of the datum. -/
theorem State.loadsTo_quiet {s : State} {p : Transfer} {r : Route} (q : s.Quiet)
    (reaches : s.Reaches .read p.size p.priv p.addr r) :
    ∃ ms draws v, s.loadsTo p = .next ((p.writeBase { s with memsys := ms, draws := draws }).finish p.rd v) ∧
      MemSys.Kept s.platform.bigEndian s.memsys ms ∧
      (p.oddHalf = false → v = p.value (s.datum .read p.size p.addr r)) := by
  have load (value : Word → Word) (draws : Nat) : ∃ ms,
      State.loadTo p.size p.place value p.rd { s with draws := draws } =
        .next ((p.writeBase { s with memsys := ms, draws := draws }).finish p.rd
          (value (s.datum .read p.size p.addr r))) ∧
      MemSys.Kept s.platform.bigEndian s.memsys ms := by
    obtain ⟨ms, loads, kept⟩ :=
      State.load_quiet (s := { s with draws := draws }) (q.of_same rfl rfl rfl) reaches
    refine ⟨ms, ?_, kept⟩
    unfold State.loadTo
    rw [show State.load .read p.size p.place.priv p.place.addr { s with draws := draws } = _ from loads]
    simp only [State.writeBack_place]
    rfl
  unfold State.loadsTo
  split
  · next odd =>
    obtain ⟨ms, run, kept⟩ := load (fun _ => s.draw.1) (s.draws + 1)
    exact ⟨ms, _, _, run, kept, fun even => absurd (odd.symm.trans even) (by decide)⟩
  · obtain ⟨ms, run, kept⟩ := load p.value s.draws
    exact ⟨ms, _, _, run, kept, fun _ => rfl⟩

theorem Transfer.Regular.even_of_pc {p : Transfer} (regular : p.Regular) (pc : p.rd = 15) : p.oddHalf = false := by
  unfold Transfer.oddHalf
  rw [beq_false_of_ne fun half => regular.half half pc, Bool.false_and]

/-- Settles O29. -/
theorem loadsReadMemory : Obligations.LoadsReadMemory := by
  intro s p r load quiet reaches v
  have regular := load.regular
  obtain ⟨ms, draws, w, run, kept, value⟩ := State.loadsTo_quiet quiet reaches
  have only := p.onlyRegisters_finish w { s with memsys := ms, draws := draws }
  have data := p.finish_data w { s with memsys := ms, draws := draws }
  refine ⟨_, load.exec_eq.trans run, fun rn x base => regular.reg_finish_base base w _, ?_, ?_, fun a => ?_⟩
  · split
    · next pc =>
      rw [if_pos pc] at data
      exact ⟨data.1.trans (congrArg (· &&& _) (value (regular.even_of_pc pc))), data.2⟩
    · next general =>
      rw [if_neg general] at data
      exact ⟨data.1, fun even => data.2.trans (value even)⟩
  · exact (State.onlyTransfer_access kept.testRegs _ draws).trans (only.onlyTransfer (p.finish_cpsr ..))
  · exact (only.bytes a).trans (kept.byteAt a)

/-! ## Stores (R300, R311, R450) -/

/-- A store that completes: the base written back, and on to the next instruction. -/
theorem State.storeRegTo_of_ok {s u : State} {p : Transfer}
    (stores : s.store .write p.size p.priv p.addr (s.storeReg p.rd) = (.ok (), u)) :
    s.storeRegTo p.size p.place p.rd = .next (p.writeBase u).advance := by
  unfold State.storeRegTo State.storeFrom
  rw [show s.store .write p.size p.place.priv p.place.addr (s.storeReg p.rd) = _ from stores]
  simp only [State.writeBack_place]

/-- A store at debug speed puts Rd on the data bus (R549). -/
theorem State.store_debugSpeed {s : State} (speed : s.debugSpeed = true) (k : Access) (n : Size) (priv : Bool)
    (va v : Word) : s.store k n priv va v =
      (.ok (), { s with dbg := { s.dbg with scanOut := s.dbg.scanOut ++ [replicated n v] } }) := if_pos speed

theorem State.debugSpeed_iff (s : State) : s.debugSpeed = true ↔ s.dbg.ack = true ∧ s.dbg.sysSpeed = false := by
  simp [State.debugSpeed]

/-- Settles O30. -/
theorem storesWriteMemory : Obligations.StoresWriteMemory := by
  intro s p store debugSpeed
  rw [store.exec_eq]
  refine ⟨fun speed => ?_, fun odd off normal => ?_, fun r even quiet reaches => ?_⟩
  · have speed := s.debugSpeed_iff.2 speed
    refine ⟨_, (if_neg (by simp [speed])).trans (State.storeRegTo_of_ok (State.store_debugSpeed speed ..)), ?_, ?_⟩
    · exact p.writeBase_memsys _
    · exact p.writeBase_dbg _
  · have normal : s.debugSpeed = false := by rwa [← Bool.not_eq_true, s.debugSpeed_iff]
    exact if_pos (by simp [odd, off, normal])
  · obtain ⟨ms, stores, wrote⟩ := State.store_quiet (v := s.storeReg p.rd) quiet reaches
    obtain ⟨pc, base, only⟩ := store.regular.store_ends { s with memsys := ms }
    refine ⟨_, (if_neg (by simp [even])).trans (State.storeRegTo_of_ok stores), pc, base, ?_, fun a => ?_⟩
    · exact (State.onlyTransfer_access wrote.testRegs _ s.draws).trans (only.onlyTransfer (p.writeBase_cpsr _))
    · exact (only.bytes a).trans (wrote.byteAt quiet a)

end Sys2Proof.Machine
end

section
/-! # Aborted block loads (R331, R333, R336, R469, R471) -/

namespace Sys2Proof.Machine

/-! ## The block loads -/

/-- A block load, as its meaning has it. -/
def BlockLoad.block (p : BlockLoad) : LoadBlock := ⟨p.start, p.rn, p.newBase, p.regs, p.bank⟩

/-- What every block load keeps to: its base is not r15, and no register is loaded twice. -/
structure BlockLoad.Regular (p : BlockLoad) : Prop where
  base : p.rn ≠ 15
  nodup : p.regs.Nodup

/-- LDM that executes is its sequence of word loads into its bank, and then its end (R332 to R334). -/
theorem execLdm_eq {s : State} {m : BlockMode} {c : Cond} {sf wb : Bool} {rn : Reg} {list : BitVec 16}
    (passes : s.passes c = true) (sound : ldmRestriction sf wb rn list = none)
    (saved : sf = true → s.spsrOf s.mode ≠ none) :
    ∃ finish, execLdm m c sf wb rn list s =
      s.loadMultiple ⟨m.start (s.reg rn) (listBytes (listedRegs list)), rn,
        if wb then some (m.newBase (s.reg rn) (listBytes (listedRegs list))) else none, listedRegs list,
        if sf && !list.getLsbD 15 then .usr else s.mode⟩ finish := by
  cases sf with
  | false => exact ⟨_, execLdm_loads passes sound⟩
  | true =>
    cases returns : list.getLsbD 15 with
    | false => exact ⟨_, execLdm_user passes sound (saved rfl) returns⟩
    | true => exact ⟨_, execLdm_returns passes sound (saved rfl) returns⟩

theorem State.armBlockLoads_exec {s : State} {c : Cond} {sf wb : Bool} {rn : Reg} {list : BitVec 16} {p : BlockLoad}
    (passes : s.passes c = true) (saved : sf = true → s.spsrOf s.mode ≠ none)
    (member : p ∈ s.armBlockLoads c sf wb rn list) (sound : p.instr.broken = none) :
    p.Regular ∧ ∃ finish, exec p.instr s = s.loadMultiple p.block finish := by
  obtain ⟨⟨i, start, newBase⟩, form, rfl⟩ := List.mem_map.1 member
  obtain ⟨m, run, restriction, places⟩ := State.ldmForms_exec form
  obtain ⟨rfl, rfl⟩ := Prod.mk.inj places
  have sound : ldmRestriction sf wb rn list = none := restriction.symm.trans sound
  obtain ⟨finish, loads⟩ := execLdm_eq (m := m) passes sound saved
  exact ⟨⟨(ldmRestriction_iff.1 sound).2.1, listedRegs_nodup (by decide) list⟩, finish, run.trans loads⟩

/-- A list of low registers does not hold r15. -/
theorem pc_not_mem_lowRegs (list : BitVec 8) : (15 : Reg) ∉ listedRegs list := fun listed =>
  absurd ((mem_listedRegs (by decide) list 15).1 listed) (by simp)

theorem State.thumbBlockLoads_exec {s : State} {extra : Bool} {rb : LowReg} {list : BitVec 8} {p : BlockLoad}
    (member : p ∈ s.thumbBlockLoads extra rb list) (sound : p.instr.broken = none) :
    p.Regular ∧ ∃ finish, exec p.instr s = s.loadMultiple p.block finish := by
  have nodup := listedRegs_nodup (by decide) list
  simp only [State.thumbBlockLoads, List.mem_cons, List.not_mem_nil, or_false] at member
  rcases member with rfl | rfl
  · have base : (13 : Reg) ≠ 15 := by decide
    have run : execThumbPop extra list s = _ := State.unconditional_effect _ sound
    cases extra with
    | false => exact ⟨⟨base, nodup⟩, _, run.trans (by rw [if_neg Bool.false_ne_true, List.append_nil]; rfl)⟩
    | true => exact ⟨⟨base, nodup.append (List.nodup_singleton 15) (by simpa using pc_not_mem_lowRegs list)⟩,
        _, run⟩
  · have run : execThumbLdmia rb list s = _ := State.unconditional_effect _ sound
    exact ⟨⟨lowReg_ne_pc rb, nodup⟩, _, run⟩

/-- A block load that executes is its sequence of word loads, and then its end (R332 to R334, R469, R471). -/
theorem State.IsBlockLoad.exec_eq {s : State} {p : BlockLoad} (h : s.IsBlockLoad p) :
    p.Regular ∧ ∃ finish, exec p.instr s = s.loadMultiple p.block finish := by
  obtain ⟨sound, ⟨c, sf, wb, rn, list, passes, saved, member⟩ | ⟨extra, rb, list, member⟩⟩ := h
  · exact State.armBlockLoads_exec passes saved member sound
  · exact State.thumbBlockLoads_exec member sound

/-! ## The words of a block load (R331) -/

/-- A load adds at most its own word to those loaded. -/
theorem Block.take_keys (b : Block) (i : Reg) (got : Got Word) :
    ((b.take i got).loaded.map Prod.fst).Sublist (b.loaded.map Prod.fst ++ [i]) := by
  have kept := List.sublist_append_left (b.loaded.map Prod.fst) [i]
  cases got with
  | ok w =>
    rw [Block.take]
    split
    · exact kept
    · rw [List.map_append]
      exact .refl _
  | abort j =>
    rw [Block.take]
    split <;> exact kept
  | stop r => exact kept

/-- An abort a block reports is one it had met or the one of the load taken in. -/
theorem Block.take_abort {b : Block} {i : Reg} {got : Got Word} {j : AbortInfo} (h : (b.take i got).abort = some j) :
    b.abort = some j ∨ got = .abort j := by
  cases got with
  | ok w =>
    rw [Block.take] at h
    split at h <;> exact .inl h
  | abort x =>
    rw [Block.take] at h
    split at h
    · exact .inl h
    · exact .inr (congrArg Got.abort (Option.some.inj h))
  | stop r => exact .inl h

theorem State.loadWords_cons (k : Access) (priv : Bool) (i : Reg) (rest : List Reg) (a : Word) (b : Block) (s : State) :
    s.loadWords k priv (i :: rest) a b =
      if b.ended s.platform.stmContinue then (b, s)
      else (s.load k .word priv a).2.loadWords k.next priv rest (a + 4) (b.take i (s.load k .word priv a).1) := rfl

/-- The registers loaded are among those to load, in their order. -/
theorem State.loadWords_keys (k : Access) (priv : Bool) (regs : List Reg) (a : Word) (b : Block) (s : State) :
    ((s.loadWords k priv regs a b).1.loaded.map Prod.fst).Sublist (b.loaded.map Prod.fst ++ regs) := by
  induction regs generalizing s k a b with
  | nil => rw [List.append_nil]; exact .refl _
  | cons i rest ih =>
    rw [State.loadWords_cons]
    split
    · exact List.sublist_append_left ..
    · refine (ih ..).trans ?_
      rw [List.append_cons]
      exact (b.take_keys i _).append_right rest

/-- The abort a sequence of loads reports is no watchpoint's when no debugger watches. -/
theorem State.loadWords_abort_dbg {k : Access} {priv : Bool} {regs : List Reg} {a : Word} {b : Block} {s : State}
    (off : s.pins.dbgen = false) (ack : s.dbg.ack = false) (before : ∀ i, b.abort = some i → i.dbg = false) :
    ∀ i, (s.loadWords k priv regs a b).1.abort = some i → i.dbg = false := by
  induction regs generalizing s k a b with
  | nil => exact before
  | cons r rest ih =>
    have accessed := s.accessed_load k .word priv a
    rw [State.loadWords_cons]
    split
    · exact before
    · refine ih (by rw [accessed.pins]; exact off) (accessed.ack.trans ack) fun i taken => ?_
      rcases Block.take_abort taken with met | now
      · exact before i met
      · exact State.load_abort_dbg off ack now

/-! ## The registers an aborted block load leaves (R336) -/

/-- The register number an entry of the registers stands for (R22). -/
def regNumber (k : Fin 30) : Nat :=
  if k.val < 15 then k.val else if k.val < 22 then k.val - 7 else 13 + k.val % 2

theorem regNumber_phys (m : Mode) {i : Reg} (general : i ≠ 15) : regNumber (phys m i) = i.toNat := by
  revert i
  cases m <;> decide

/-- Each entry of the registers is of one register number, in whichever mode. -/
theorem eq_of_phys_eq {m n : Mode} {i j : Reg} (hi : i ≠ 15) (hj : j ≠ 15) (same : phys m i = phys n j) : i = j := by
  apply BitVec.eq_of_toNat_eq
  rw [← regNumber_phys m hi, ← regNumber_phys n hj, same]

/-- The words loaded before the abort written but for the base, and the base written back. -/
def State.partLoaded (s : State) (p : BlockLoad) (b : Block) : State :=
  (s.writeLoaded p.bank (some p.rn) b.loaded).withBase p.rn p.newBase

theorem State.SameRegisters.setBankReg {s u : State} (h : s.SameRegisters u) (m : Mode) (i : Reg) (v : Word) :
    (s.setBankReg m i v).SameRegisters (u.setBankReg m i v) := by
  obtain ⟨ms, d, n, calls, rfl⟩ := h
  refine ⟨ms, d, n, calls, ?_⟩
  unfold State.setBankReg
  split <;> rfl

theorem State.SameRegisters.writeLoaded {s u : State} (h : s.SameRegisters u) (m : Mode) (x : Option Reg)
    (l : List (Reg × Word)) : (s.writeLoaded m x l).SameRegisters (u.writeLoaded m x l) := by
  induction l generalizing s u with
  | nil => exact h
  | cons q rest ih =>
    simp only [State.writeLoaded]
    split
    · exact ih h
    · exact ih (h.setBankReg m q.1 q.2)

theorem State.partLoaded_eq (s : State) (p : BlockLoad) (b : Block) :
    ∃ r, s.partLoaded p b = { s with regs := r } := by
  obtain ⟨r, written⟩ := State.writeLoaded_eq p.bank (some p.rn) b.loaded s
  rw [State.partLoaded, written, State.withBase_regs]
  exact ⟨_, rfl⟩

/-- An entry once the base is written back, if it is. -/
theorem State.withBase_getElem {rn : Reg} (base : rn ≠ 15) (newBase : Option Word) (s : State) (k : Fin 30) :
    (s.withBase rn newBase).regs[k] = if k = phys s.mode rn then newBase.getD s.regs[k] else s.regs[k] := by
  cases newBase with
  | none => exact (ite_self _).symm
  | some v => exact State.setBankReg_getElem s.mode rn v s k base

section
variable {s : State} {p : BlockLoad} {b : Block}

theorem State.partLoaded_getElem (base : p.rn ≠ 15) (k : Fin 30) :
    (s.partLoaded p b).regs[k] =
      if k = phys s.mode p.rn then p.newBase.getD s.regs[k] else (s.writeLoaded p.bank (some p.rn) b.loaded).regs[k] := by
  obtain ⟨r, written⟩ := State.writeLoaded_eq p.bank (some p.rn) b.loaded s
  have mode : (s.writeLoaded p.bank (some p.rn) b.loaded).mode = s.mode := by rw [written]; rfl
  rw [State.partLoaded, State.withBase_getElem base, mode]
  split
  · next isBase =>
    rw [State.writeLoaded_other]
    intro q _ general other same
    exact other (congrArg some (eq_of_phys_eq base general (isBase.symm.trans same.symm)))
  · rfl

/-- The base after an abort: updated when it is written back, else as it was (R336). -/
theorem State.partLoaded_base (base : p.rn ≠ 15) :
    (s.partLoaded p b).regs[phys s.mode p.rn] = p.newBase.getD (s.reg p.rn) := by
  rw [State.partLoaded_getElem base, if_pos rfl, State.reg, if_neg base]

/-- The words read before the abort are in their registers, but for the base and r15 (R336). -/
theorem State.partLoaded_word (base : p.rn ≠ 15) (nodup : (b.loaded.map Prod.fst).Nodup) {q : Reg × Word}
    (member : q ∈ b.loaded) (general : q.1 ≠ 15) (other : q.1 ≠ p.rn) :
    (s.partLoaded p b).regs[phys p.bank q.1] = q.2 := by
  rw [State.partLoaded_getElem base, if_neg fun same => other (eq_of_phys_eq general base same)]
  exact State.writeLoaded_mem p.bank _ _ s nodup member general fun same => other (Option.some.inj same).symm

/-- No other register changes (R336). -/
theorem State.sameRegs_partLoaded (base : p.rn ≠ 15) :
    SameRegsBut (phys s.mode p.rn :: b.loaded.map fun q => phys p.bank q.1) s (s.partLoaded p b) := by
  intro k out
  obtain ⟨notBase, notLoaded⟩ := not_or.1 (mt List.mem_cons.2 out)
  rw [State.partLoaded_getElem base, if_neg notBase, State.writeLoaded_other]
  exact fun q member _ _ same => notLoaded (List.mem_map.2 ⟨q, member, same⟩)

end

/-! ## The abort -/

/-- The return address, FSR and FAR of a Data Abort taken after registers were written are those of the state
before it. -/
theorem State.DataAborted.of_regs {s x t : State} {i : AbortInfo} {ms : MemSys} {r : Vector Word 30}
    (h : x.DataAborted x i ms t) (regs : x = { s with regs := r }) : s.DataAborted x i ms t := by
  subst regs
  obtain ⟨entered, cp15, cp14, platform, memsys⟩ := h
  exact ⟨entered, cp15, cp14, platform, memsys⟩

/-- A block load that is aborted at any of its words (R336, R469, R471). -/
theorem State.IsBlockLoad.aborts {s u : State} {p : BlockLoad} {b : Block} {i : AbortInfo} (h : s.IsBlockLoad p)
    (off : s.pins.dbgen = false) (ack : s.dbg.ack = false)
    (loads : s.loadWords .blockRead s.privileged p.regs p.start .empty = (b, u)) (goes : b.stop = none)
    (aborted : b.abort = some i) :
    ∃ t, exec p.instr s = .next t ∧ s.DataAborted (s.partLoaded p b) i u.memsys t := by
  obtain ⟨-, finish, run⟩ := h.exec_eq
  have same := (State.accessed_loadWords .blockRead s.privileged p.regs p.start .empty s).sameRegisters
  have bus := State.loadWords_abort_dbg (k := .blockRead) (priv := s.privileged) (regs := p.regs) (a := p.start)
    (b := .empty) off ack nofun i
  rw [loads] at same bus
  obtain ⟨_, written⟩ := State.writeLoaded_eq p.bank (some p.rn) b.loaded u
  have memsys : ((u.writeLoaded p.bank (some p.rn) b.loaded).writeBlockBase p.rn p.newBase).memsys = u.memsys := by
    rw [State.writeBlockBase_memsys, written]
  have taken := ((same.writeLoaded p.bank (some p.rn) b.loaded).withBase p.rn p.newBase).dataAborted (bus aborted) memsys
  obtain ⟨r, regs⟩ := s.partLoaded_eq p b
  refine ⟨_, run.trans ?_, taken.of_regs regs⟩
  rw [State.loadMultiple, show s.loadWords .blockRead s.privileged p.block.regs p.block.start .empty = (b, u) from loads]
  simp only [goes, aborted]
  rfl

/-- Settles O37. -/
theorem dataAbortOfLoadMultiple : Obligations.DataAbortOfLoadMultiple := by
  intro s u p b i h off ack loads goes aborted
  obtain ⟨⟨base, distinct⟩, -⟩ := h.exec_eq
  obtain ⟨t, run, entered, cp15, cp14, -, memsys⟩ := h.aborts off ack loads goes aborted
  have keys := State.loadWords_keys .blockRead s.privileged p.regs p.start .empty s
  rw [loads] at keys
  have nodup : (b.loaded.map Prod.fst).Nodup := distinct.sublist keys
  have newBase := State.partLoaded_base (s := s) (b := b) base
  have words := fun q => State.partLoaded_word (s := s) (q := q) base nodup
  have others := State.sameRegs_partLoaded (s := s) (b := b) base
  obtain ⟨r, regs⟩ := s.partLoaded_eq p b
  rw [regs] at entered newBase words others
  have kept {k : Fin 30} (notLink : k ≠ phys .abt 14) : t.regs[k] = r[k] :=
    entered.regs k fun link => notLink (List.mem_singleton.1 link)
  refine ⟨t, run, cp15, memsys, entered.link, Option.some.inj entered.saved, entered.mode, entered.thumb, entered.pc,
    entered.irqMask, entered.fiqMask, entered.rest, entered.others, entered.pipe, cp14, ?_, ?_, ?_⟩
  · exact fun q member general other notLink => (kept notLink).trans (words q member general other)
  · exact fun notLink => (kept notLink).trans newBase
  · intro k out
    obtain ⟨notLink, out⟩ := not_or.1 (mt List.mem_cons.2 out)
    exact (kept notLink).trans (others k out)

end Sys2Proof.Machine
end

section
/-! # SWI, and the coprocessor instructions but for their transfers (R352, R354 to R368, R480) -/

namespace Sys2Proof.Machine

/-! ## SWI (R352, R480) -/

/-- Settles O24. -/
theorem softwareInterruptEntry : Obligations.SoftwareInterruptEntry := by
  intro s c imm24 imm8 i swi
  have run : exec i s = .next s.takeSwi := by
    rcases swi with ⟨rfl, passes⟩ | rfl
    · exact State.conditional_passes (fun s => .next s.takeSwi) passes
    · rfl
  exact ⟨_, run, State.entered .., State.enter_outside ..⟩

/-! ## The offer to a coprocessor (R354 to R356) -/

theorem Platform.attached_iff (p : Platform) (cp : BitVec 4) :
    p.attached cp = true ↔ p.extCoprocs.getLsbD cp.toNat = true ∧ cp ≠ 14 ∧ cp ≠ 15 := by
  simp [Platform.attached, and_assoc]

/-- Nobody answers at 14, at 15 and at a number with no coprocessor (R354, R355). -/
theorem Platform.not_attached_iff (p : Platform) (cp : BitVec 4) :
    ¬ p.attached cp = true ↔ p.extCoprocs.getLsbD cp.toNat = false ∨ cp = 14 ∨ cp = 15 := by
  simp only [Platform.attached_iff, not_and_or, Bool.not_eq_true, not_not]

section
variable {s : State} {cp : BitVec 4}

theorem State.offer_attached {r : CoprocReply} {rest : List CoprocReply} (attached : s.platform.attached cp = true)
    (answers : s.coproc = r :: rest) : s.offer cp = (r, { s with coproc := rest }) := by
  rw [State.offer, if_pos attached, answers]

/-- With nobody to answer, an offer ends in the trap (R355). -/
theorem State.offered_unattached (effect : CoprocReply → State → Out) (alone : ¬ s.platform.attached cp = true) :
    s.offered cp effect = .next s.takeUndefined := by
  have offer : s.offer cp = (.none, s) := if_neg alone
  rw [State.offered, offer]
  rfl

theorem State.offered_busy {r : CoprocReply} {rest : List CoprocReply} (effect : CoprocReply → State → Out)
    (attached : s.platform.attached cp = true) (answers : s.coproc = r :: rest) (busy : r.answer = .busy) :
    s.offered cp effect = .next { s with coproc := rest } := by
  rw [State.offered, State.offer_attached attached answers]
  simp only [busy]

theorem State.offered_absent {r : CoprocReply} {rest : List CoprocReply} (effect : CoprocReply → State → Out)
    (attached : s.platform.attached cp = true) (answers : s.coproc = r :: rest) (absent : r.answer = .absent) :
    s.offered cp effect = .next (State.takeUndefined { s with coproc := rest }) := by
  rw [State.offered, State.offer_attached attached answers]
  simp only [absent]

end

/-! ## What is offered (R359 to R363) -/

theorem exec_armCdp (c : Cond) (op1 crn crd cp : BitVec 4) (op2 : BitVec 3) (crm : BitVec 4) (s : State) :
    exec (.armCdp c op1 crn crd cp op2 crm) s = execArmCdp c op1 crn crd cp op2 crm s := rfl

theorem exec_armLdc (c : Cond) (p up n wb : Bool) (rn : Reg) (crd cp : BitVec 4) (off : BitVec 8) (s : State) :
    exec (.armLdc c p up n wb rn crd cp off) s = execArmLdc c p up n wb rn crd cp off s := rfl

theorem exec_armStc (c : Cond) (p up n wb : Bool) (rn : Reg) (crd cp : BitVec 4) (off : BitVec 8) (s : State) :
    exec (.armStc c p up n wb rn crd cp off) s = execArmStc c p up n wb rn crd cp off s := rfl

section
variable {s : State} {c : Cond} {op1 crn crd cp crm : BitVec 4} {o1 op2 : BitVec 3} {rn rd : Reg} {p up n wb : Bool}
  {off : BitVec 8} {i : Instr}

/-- CDP offers itself, whatever its number (R359). -/
theorem State.exec_cdp_offered (passes : s.passes c = true) :
    exec (.armCdp c op1 crn crd cp op2 crm) s =
      s.offered cp fun _ s => .next (s.call (.dataOp cp op1 crd crn crm op2)).advance := by
  rw [exec_armCdp, execArmCdp, State.conditional_passes _ passes]

/-- LDC and STC offer themselves, whatever their number (R360, R361). -/
theorem State.exec_transfer_offered (passes : s.passes c = true) (sound : i.broken = none)
    (h : i = .armLdc c p up n wb rn crd cp off ∨ i = .armStc c p up n wb rn crd cp off) :
    ∃ effect, exec i s = s.offered cp effect := by
  rcases h with rfl | rfl
  · exact ⟨_, (exec_armLdc ..).trans (State.conditional_effect _ passes sound)⟩
  · exact ⟨_, (exec_armStc ..).trans (State.conditional_effect _ passes sound)⟩

/-- MCR to a coprocessor that is none of the two inside offers itself (R362). -/
theorem State.exec_mcr_offered (passes : s.passes c = true) (data : rd ≠ 15) (debug : cp ≠ 14) (system : cp ≠ 15) :
    exec (.armMcr c o1 crn rd cp op2 crm) s =
      s.offered cp fun _ s => .next (s.call (.write cp o1 crn crm op2 (s.reg rd))).advance := by
  rw [exec_armMcr, execArmMcr, State.conditional_effect _ passes (notPcRestriction_eq_none data), if_neg system,
    if_neg debug]

/-- MRC from a coprocessor that is none of the two inside offers itself (R363). -/
theorem State.exec_mrc_offered (passes : s.passes c = true) (debug : cp ≠ 14) (system : cp ≠ 15) :
    exec (.armMrc c o1 crn rd cp op2 crm) s =
      s.offered cp fun r s => (s.call (.read cp o1 crn crm op2)).endMrc rd r.first := by
  rw [exec_armMrc, execArmMrc, State.conditional_passes _ passes, if_neg system, if_neg debug]

theorem State.exec_move_offered (passes : s.passes c = true) (sound : i.broken = none) (debug : cp ≠ 14)
    (system : cp ≠ 15) (h : i = .armMcr c o1 crn rd cp op2 crm ∨ i = .armMrc c o1 crn rd cp op2 crm) :
    ∃ effect, exec i s = s.offered cp effect := by
  rcases h with rfl | rfl
  · exact ⟨_, State.exec_mcr_offered passes (notPcRestriction_iff.1 sound) debug system⟩
  · exact ⟨_, State.exec_mrc_offered passes debug system⟩

/-! ## The two coprocessors inside (R364 to R366) -/

/-- MCR and MRC to CP15 trap in User mode (R365). -/
theorem State.exec_move15_user (passes : s.passes c = true) (sound : i.broken = none) (user : s.privileged = false)
    (h : i = .armMcr c o1 crn rd 15 op2 crm ∨ i = .armMrc c o1 crn rd 15 op2 crm) :
    exec i s = .next s.takeUndefined := by
  have user : ¬ s.privileged = true := by simp [user]
  rcases h with rfl | rfl
  · rw [exec_armMcr, execArmMcr, State.conditional_effect _ passes (by exact sound), if_pos rfl]
    exact if_neg user
  · exact (State.exec_mrc15 o1 crn crm op2 rd passes).trans (if_neg user)

/-- The operations R366 gives CP14: `r` for the one that is a read alone. -/
def Cp14Form (o1 op2 : BitVec 3) (crn crm : BitVec 4) (r : Bool) : Prop :=
  o1 = 0 ∧ crm = 0 ∧ op2 = 0 ∧ ((crn = 0 ∧ r = true) ∨ crn = 1 ∨ crn = 2)

theorem cp14Form_of_toNat {r : Bool} (h1 : o1.toNat = 0) (h2 : crm.toNat = 0) (h3 : op2.toNat = 0)
    (register : (crn.toNat = 0 ∧ r = true) ∨ crn.toNat = 1 ∨ crn.toNat = 2) : Cp14Form o1 op2 crn crm r :=
  ⟨BitVec.eq_of_toNat_eq h1, BitVec.eq_of_toNat_eq h2, BitVec.eq_of_toNat_eq h3,
    register.imp (.imp_left BitVec.eq_of_toNat_eq) (.imp BitVec.eq_of_toNat_eq BitVec.eq_of_toNat_eq)⟩

theorem Cp14.write_unlisted (unlisted : ¬ Cp14Form o1 op2 crn crm false) (v : Word) (cp : Cp14) :
    cp.write o1 crn crm op2 v = none := by
  unfold Cp14.write
  split
  next h1 data h2 h3 => exact absurd (cp14Form_of_toNat h1 h2 h3 (.inr (.inl data))) unlisted
  next h1 status h2 h3 => exact absurd (cp14Form_of_toNat h1 h2 h3 (.inr (.inr status))) unlisted
  next => rfl

theorem Cp14.read_unlisted (unlisted : ¬ Cp14Form o1 op2 crn crm true) (cp : Cp14) :
    cp.read o1 crn crm op2 = none := by
  unfold Cp14.read
  split
  next h1 control h2 h3 => exact absurd (cp14Form_of_toNat h1 h2 h3 (.inl ⟨control, rfl⟩)) unlisted
  next h1 data h2 h3 => exact absurd (cp14Form_of_toNat h1 h2 h3 (.inr (.inl data))) unlisted
  next h1 status h2 h3 => exact absurd (cp14Form_of_toNat h1 h2 h3 (.inr (.inr status))) unlisted
  next => rfl

/-- MCR to CP14 in a form R366 does not list traps (R366). -/
theorem State.exec_mcr14_unlisted (passes : s.passes c = true) (data : rd ≠ 15)
    (unlisted : ¬ Cp14Form o1 op2 crn crm false) :
    exec (.armMcr c o1 crn rd 14 op2 crm) s = .next s.takeUndefined := by
  rw [State.exec_mcr14 o1 crn crm op2 passes data, State.mcr14, Cp14.write_unlisted unlisted]

/-- MRC from CP14 in a form R366 does not list traps (R366). -/
theorem State.exec_mrc14_unlisted (passes : s.passes c = true) (unlisted : ¬ Cp14Form o1 op2 crn crm true) :
    exec (.armMrc c o1 crn rd 14 op2 crm) s = .next s.takeUndefined := by
  rw [State.exec_mrc14 o1 crn crm op2 rd passes, State.mrc14, Cp14.read_unlisted unlisted]

end

/-! ## The statements -/

/-- Settles O43. -/
theorem coprocessorNotReady : Obligations.CoprocessorNotReady := by
  intro s c op1 crn crd cp crm o1 op2 rn rd p up n wb off passes free form i sound
  have alone : free → ¬ s.platform.attached cp = true := (s.platform.not_attached_iff cp).2
  refine ⟨fun ⟨nobody, which⟩ => ?_, fun r rest somebody answers which => ?_⟩
  · have run : exec i s = .next s.takeUndefined := by
      have trap (offered : ∃ effect, exec i s = s.offered cp effect) : exec i s = .next s.takeUndefined := by
        obtain ⟨effect, run⟩ := offered
        rw [run, State.offered_unattached effect (alone nobody)]
      rcases which with rfl | ldc | stc | ⟨debug, user, move⟩ | ⟨rfl, unlisted, rfl⟩ | ⟨rfl, unlisted, rfl⟩
      · exact trap ⟨_, State.exec_cdp_offered passes⟩
      · exact trap (State.exec_transfer_offered passes sound (.inl ldc))
      · exact trap (State.exec_transfer_offered passes sound (.inr stc))
      · by_cases system : cp = 15
        · subst system
          exact State.exec_move15_user passes sound (user rfl) move
        · exact trap (State.exec_move_offered passes sound debug system move)
      · exact State.exec_mcr14_unlisted passes (notPcRestriction_iff.1 sound) unlisted
      · exact State.exec_mrc14_unlisted passes unlisted
    exact ⟨_, run, State.entered .., State.enter_outside ..⟩
  · have attached : s.platform.attached cp = true := by
      by_contra absent
      exact somebody ((s.platform.not_attached_iff cp).1 absent)
    obtain ⟨-, debug, system⟩ := (s.platform.attached_iff cp).1 attached
    obtain ⟨effect, run⟩ : ∃ effect, exec i s = s.offered cp effect := by
      rcases which with rfl | ldc | stc | move
      · exact ⟨_, State.exec_cdp_offered passes⟩
      · exact State.exec_transfer_offered passes sound (.inl ldc)
      · exact State.exec_transfer_offered passes sound (.inr stc)
      · exact State.exec_move_offered passes sound debug system move
    refine ⟨fun busy => run.trans (State.offered_busy effect attached answers busy), fun absent => ?_⟩
    exact ⟨_, run.trans (State.offered_absent effect attached answers absent),
      (State.entered ..).of_same rfl rfl rfl fun _ => rfl, State.enter_outside ..⟩

/-- Settles O44. -/
theorem coprocessorReady : Obligations.CoprocessorReady := by
  intro s c op1 crn crd cp crm o1 op2 rd r rest passes attached debug system answers ready sent
  have accepted (effect : CoprocReply → State → Out) :
      s.offered cp effect = effect r { s with coproc := rest } :=
    State.offered_ready effect attached debug system answers ready
  refine ⟨?_, fun data => ?_, ?_⟩
  · rw [State.exec_cdp_offered passes, accepted]
    rfl
  · rw [State.exec_mcr_offered passes data debug system, accepted]
    rfl
  · obtain ⟨t, next, pc, takes⟩ := State.endMrc_takes (sent (.read cp o1 crn crm op2)) s.draws rd r.first
    refine ⟨t, ?_, pc, ?_⟩
    · rw [State.exec_mrc_offered passes debug system, accepted]
      exact next
    · unfold State.Takes at takes
      split at takes
      next isPc =>
        obtain ⟨flags, only⟩ := takes
        rw [if_pos isPc, if_pos isPc]
        exact ⟨only, flags⟩
      next general =>
        obtain ⟨result, cpsr, only⟩ := takes
        rw [if_neg general, if_neg general]
        exact ⟨only, result, cpsr⟩

end Sys2Proof.Machine
end

section
/-! # Swaps that complete (R350, R351) -/

namespace Sys2Proof.Machine

/-! ## The read is let through where the write is, and the write where the read was -/

/-- Whoever may write may read (R129). -/
theorem permits_read_of_write {sBit rBit priv : Bool} {ap : BitVec 2} (h : permits sBit rBit ap priv true = true) :
    permits sBit rBit ap priv false = true := by
  revert sBit rBit priv ap
  decide

theorem TlbEntry.check_swapRead {cp : Cp15} {priv : Bool} {e : TlbEntry} (h : e.check cp .swapWrite priv = none) :
    e.check cp .swapRead priv = none := by
  unfold TlbEntry.check at h ⊢
  split at h
  · split at h
    next allowed => exact if_pos (permits_read_of_write allowed)
    next => cases h
  · rfl
  · cases h

/-- When steps 1 to 3 let an access through, and to what place (R100): flat with the MMU off, else where the entry
found maps it, if that entry allows it. -/
theorem MemSys.resolve_eq_ok_iff {big : Bool} {cp : Cp15} {k : Access} {n : Size} {priv : Bool} {va : Word}
    {ms m : MemSys} {r : Route} : ms.resolve big cp k n priv va = (.ok r, m) ↔
      (cp.alignOn && misaligned k n va) = false ∧
        ((cp.mmuOn = false ∧ ⟨accessMva cp n va, false, false, priv, none⟩ = r ∧ ms = m) ∨
          (cp.mmuOn = true ∧ ∃ e, ms.translate big cp (accessMva cp n va) = (.ok e, m) ∧ e.check cp k priv = none ∧
            ⟨e.physical (accessMva cp n va), e.cachable, e.bufferable, priv, some e⟩ = r)) := by
  by_cases faults : (cp.alignOn && misaligned k n va) = true
  · rw [MemSys.resolve_misaligned faults, faults]
    exact ⟨nofun, fun ⟨aligned, _⟩ => nomatch aligned⟩
  · have aligned : (cp.alignOn && misaligned k n va) = false := by simpa using faults
    rw [MemSys.resolve_aligned aligned, MemSys.route]
    cases on : cp.mmuOn with
    | false => simp [aligned]
    | true =>
      rcases ms.translate big cp (accessMva cp n va) with ⟨e | i | stop, m'⟩
      · cases checked : e.check cp k priv <;> simp [aligned, checked, and_comm]
      · simp
      · simp

/-- Where steps 1 to 3 let the write of a swap through, they let its read through, to the same place (R100). -/
theorem MemSys.resolve_swapRead {big : Bool} {cp : Cp15} {n : Size} {priv : Bool} {va : Word} {ms m : MemSys} {r : Route}
    (h : ms.resolve big cp .swapWrite n priv va = (.ok r, m)) :
    ms.resolve big cp .swapRead n priv va = (.ok r, m) := by
  obtain ⟨aligned, flat | ⟨on, e, found, allowed, place⟩⟩ := MemSys.resolve_eq_ok_iff.1 h
  · exact MemSys.resolve_eq_ok_iff.2 ⟨aligned, .inl flat⟩
  · exact MemSys.resolve_eq_ok_iff.2 ⟨aligned, .inr ⟨on, e, found, TlbEntry.check_swapRead allowed, place⟩⟩

/-- An access let through once is let through again, to the same address, as long as the TLB is as that left it
(R114). -/
theorem MemSys.resolve_ok_again {big : Bool} {cp : Cp15} {k : Access} {n : Size} {priv : Bool} {va : Word}
    {ms m m' : MemSys} {r : Route} (h : ms.resolve big cp k n priv va = (.ok r, m)) (tlb : m'.tlb = m.tlb) :
    ∃ r', m'.resolve big cp k n priv va = (.ok r', m') ∧ r'.pa = r.pa := by
  obtain ⟨aligned, ⟨off, rfl, rfl⟩ | ⟨on, e, found, allowed, rfl⟩⟩ := MemSys.resolve_eq_ok_iff.1 h
  · exact ⟨_, MemSys.resolve_eq_ok_iff.2 ⟨aligned, .inl ⟨off, rfl, rfl⟩⟩, rfl⟩
  · obtain ⟨p, answers⟩ := MemSys.translate_answers found
    have again := MemSys.translate_of_hit (big := big) (cp := cp)
      ((MemSys.tlbLookup_congr tlb (accessMva cp n va)).trans answers)
    have stillAllowed : TlbEntry.check cp k priv { e with preserve := p } = none := allowed
    exact ⟨_, MemSys.resolve_eq_ok_iff.2 ⟨aligned, .inr ⟨on, _, again, stillAllowed, rfl⟩⟩, rfl⟩

/-! ## The instruction -/

/-- The read of a swap does not look at the cache (R350): it gets memory's word once the buffered writes are
performed. -/
theorem State.datum_swapRead (s : State) (n : Size) (va : Word) (r : Route) :
    s.datum .swapRead n va r = lanes s.cp15.bigEndian n va (s.settled.word s.platform.bigEndian r.pa) := by
  simp [State.datum, State.wordRead]

/-- A swap whose write is let through, on a quiet machine: Rd takes the old datum and memory the new one. -/
theorem State.Quiet.swap {s : State} (q : s.Quiet) {n : Size} {a : Word} {r : Route} (rd : Reg) (value : Word → Word)
    (src : Word) (reaches : s.Reaches .swapWrite n s.privileged a r) :
    ∃ ms, s.swap n rd value a src = .next (State.setReg rd
        (value (lanes s.cp15.bigEndian n a (s.settled.word s.platform.bigEndian r.pa))) { s with memsys := ms }).advance ∧
      MemSys.Wrote s.platform.bigEndian n r.pa src s.memsys ms := by
  obtain ⟨m, written⟩ : ∃ m, s.memsys.resolve s.platform.bigEndian s.cp15 .swapWrite n s.privileged a = (.ok r, m) :=
    ⟨_, Prod.ext reaches rfl⟩
  have resolved := MemSys.resolve_swapRead written
  obtain ⟨ms, loads, kept⟩ := State.load_quiet q (k := .swapRead) (congrArg Prod.fst resolved)
  have tlb : ms.tlb = m.tlb := by
    have after := (State.load_undebugged q.dbgen q.ack .swapRead n s.privileged a).1
    rw [loads, MemSys.read_swapRead resolved] at after
    rw [show ms = _ from congrArg State.memsys after]
    exact (MemSys.onBus_externalRead ..).tlb
  obtain ⟨r', reaches', place⟩ := MemSys.resolve_ok_again written tlb
  obtain ⟨ms', stores, wrote⟩ :=
    State.store_quiet (s := { s with memsys := ms }) (v := src) (q.kept kept) (k := .swapWrite)
      (congrArg Prod.fst reaches')
  rw [place] at wrote
  refine ⟨ms', ?_, kept.wrote wrote⟩
  unfold State.swap
  rw [loads, State.datum_swapRead]
  simp only
  rw [show State.privileged { s with memsys := ms } = s.privileged from rfl, stores]

/-- Settles O38. -/
theorem swapExchanges : Obligations.SwapExchanges := by
  intro s c rn rd rm r passes quiet a p member sound reaches
  have run : exec p.1 s = s.swap p.2.1 rd p.2.2 a (s.reg rm) := by
    simp only [List.mem_cons, List.not_mem_nil, or_false] at member
    rcases member with rfl | rfl
    · exact (exec_armSwp c rn rd rm s).trans (State.conditional_effect _ passes sound)
    · exact (exec_armSwpb c rn rd rm s).trans (State.conditional_effect _ passes sound)
  have general : rd ≠ 15 := by
    have restriction : swapRestriction rn rd rm = none := by
      simp only [List.mem_cons, List.not_mem_nil, or_false] at member
      rcases member with rfl | rfl <;> exact sound
    obtain ⟨-, general, -⟩ := swapRestriction_iff.1 restriction
    exact general
  obtain ⟨ms, swaps, wrote⟩ := quiet.swap rd p.2.2 (s.reg rm) reaches
  obtain ⟨result, pc, only, cpsr⟩ := State.leavesResult_setReg general
    (p.2.2 (lanes s.cp15.bigEndian p.2.1 a (s.settled.word s.platform.bigEndian r.pa))) false false
    { s with memsys := ms }
  refine ⟨_, run.trans swaps, pc, result, ?_, fun x => ?_⟩
  · exact (State.onlyTransfer_access wrote.testRegs _ s.draws).trans (only.onlyTransfer cpsr)
  · exact (only.bytes x).trans (wrote.byteAt quiet x)

end Sys2Proof.Machine
end

section
/-! # Thumb register and arithmetic instructions (R390 to R434) -/

namespace Sys2Proof.Machine

/-! ## The instructions: one template, one operation each (R392 to R418, R425 to R433) -/

section
variable (rn rs rd : LowReg) (rm hd : Reg) (imm3 : BitVec 3) (imm5 : BitVec 5) (word7 : BitVec 7) (imm8 : BitVec 8)
  (s : State)

theorem exec_thumbLslImm : exec (.thumbLslImm imm5 rs rd) s =
    thumbWrite rd (s.shiftAlu (lsl (s.reg rs.reg) imm5.toNat s.flagC)) s := rfl

theorem exec_thumbLsrImm : exec (.thumbLsrImm imm5 rs rd) s =
    thumbWrite rd (s.shiftAlu (lsr (s.reg rs.reg) (if imm5 = 0 then 32 else imm5.toNat) s.flagC)) s := rfl

theorem exec_thumbAsrImm : exec (.thumbAsrImm imm5 rs rd) s =
    thumbWrite rd (s.shiftAlu (asr (s.reg rs.reg) (if imm5 = 0 then 32 else imm5.toNat) s.flagC)) s := rfl

theorem exec_thumbLslReg : exec (.thumbLslReg rs rd) s =
    thumbWrite rd (s.shiftAlu (lsl (s.reg rd.reg) ((s.reg rs.reg).toNat % 256) s.flagC)) s := rfl

theorem exec_thumbLsrReg : exec (.thumbLsrReg rs rd) s =
    thumbWrite rd (s.shiftAlu (lsr (s.reg rd.reg) ((s.reg rs.reg).toNat % 256) s.flagC)) s := rfl

theorem exec_thumbAsrReg : exec (.thumbAsrReg rs rd) s =
    thumbWrite rd (s.shiftAlu (asr (s.reg rd.reg) ((s.reg rs.reg).toNat % 256) s.flagC)) s := rfl

theorem exec_thumbRor : exec (.thumbRor rs rd) s =
    thumbWrite rd (s.shiftAlu (ror (s.reg rd.reg) ((s.reg rs.reg).toNat % 256) s.flagC)) s := rfl

theorem exec_thumbMovImm : exec (.thumbMovImm rd imm8) s = thumbWrite rd (s.logicAlu (imm8.zeroExtend 32)) s := rfl

theorem exec_thumbAnd : exec (.thumbAnd rs rd) s = thumbWrite rd (s.logicAlu (s.reg rd.reg &&& s.reg rs.reg)) s := rfl

theorem exec_thumbEor : exec (.thumbEor rs rd) s = thumbWrite rd (s.logicAlu (s.reg rd.reg ^^^ s.reg rs.reg)) s := rfl

theorem exec_thumbOrr : exec (.thumbOrr rs rd) s = thumbWrite rd (s.logicAlu (s.reg rd.reg ||| s.reg rs.reg)) s := rfl

theorem exec_thumbBic : exec (.thumbBic rs rd) s =
    thumbWrite rd (s.logicAlu (s.reg rd.reg &&& ~~~(s.reg rs.reg))) s := rfl

theorem exec_thumbMvn : exec (.thumbMvn rs rd) s = thumbWrite rd (s.logicAlu (~~~(s.reg rs.reg))) s := rfl

theorem exec_thumbTst : exec (.thumbTst rs rd) s = thumbTest (s.logicAlu (s.reg rd.reg &&& s.reg rs.reg)) s := rfl

theorem exec_thumbAddReg : exec (.thumbAddReg rn rs rd) s =
    thumbWrite rd (addWithCarry (s.reg rs.reg) (s.reg rn.reg) false) s := rfl

theorem exec_thumbSubReg : exec (.thumbSubReg rn rs rd) s =
    thumbWrite rd (addWithCarry (s.reg rs.reg) (~~~(s.reg rn.reg)) true) s := rfl

theorem exec_thumbAddImm3 : exec (.thumbAddImm3 imm3 rs rd) s =
    thumbWrite rd (addWithCarry (s.reg rs.reg) (imm3.zeroExtend 32) false) s := rfl

theorem exec_thumbSubImm3 : exec (.thumbSubImm3 imm3 rs rd) s =
    thumbWrite rd (addWithCarry (s.reg rs.reg) (~~~(imm3.zeroExtend 32)) true) s := rfl

theorem exec_thumbAddImm8 : exec (.thumbAddImm8 rd imm8) s =
    thumbWrite rd (addWithCarry (s.reg rd.reg) (imm8.zeroExtend 32) false) s := rfl

theorem exec_thumbSubImm8 : exec (.thumbSubImm8 rd imm8) s =
    thumbWrite rd (addWithCarry (s.reg rd.reg) (~~~(imm8.zeroExtend 32)) true) s := rfl

theorem exec_thumbAdc : exec (.thumbAdc rs rd) s =
    thumbWrite rd (addWithCarry (s.reg rd.reg) (s.reg rs.reg) s.flagC) s := rfl

theorem exec_thumbSbc : exec (.thumbSbc rs rd) s =
    thumbWrite rd (addWithCarry (s.reg rd.reg) (~~~(s.reg rs.reg)) s.flagC) s := rfl

theorem exec_thumbNeg : exec (.thumbNeg rs rd) s =
    thumbWrite rd (addWithCarry 0 (~~~(s.reg rs.reg)) true) s := rfl

theorem exec_thumbCmpImm : exec (.thumbCmpImm rd imm8) s =
    thumbTest (addWithCarry (s.reg rd.reg) (~~~(imm8.zeroExtend 32)) true) s := rfl

theorem exec_thumbCmpReg : exec (.thumbCmpReg rs rd) s =
    thumbTest (addWithCarry (s.reg rd.reg) (~~~(s.reg rs.reg)) true) s := rfl

theorem exec_thumbCmn : exec (.thumbCmn rs rd) s =
    thumbTest (addWithCarry (s.reg rd.reg) (s.reg rs.reg) false) s := rfl

theorem exec_thumbCmpHi : exec (.thumbCmpHi rm hd) s =
    s.unconditional (cmpHighRestriction rm hd)
      fun s => thumbTest (addWithCarry (s.reg hd) (~~~(s.reg rm)) true) s := rfl

theorem exec_thumbAddHi : exec (.thumbAddHi rm hd) s =
    s.unconditional (highRestriction rm hd) fun s => .next (s.finish hd (s.reg hd + s.reg rm)) := rfl

theorem exec_thumbMovHi : exec (.thumbMovHi rm hd) s =
    s.unconditional (highRestriction rm hd) fun s => .next (s.finish hd (s.reg rm)) := rfl

end

/-! ## The shared ends: the result with its flags, the flags alone (R391) -/

theorem thumbWrite_leaves {s : State} {i : Instr} {rd : LowReg} {a : Alu} {v : Word} {c ov : Bool}
    (run : exec i s = thumbWrite rd a s) (alu : a = logical v c ov) :
    ∃ t, exec i s = .next t ∧ LeavesResult s t true rd.reg v c ov := by
  rw [run, alu]
  exact ⟨_, rfl, s.leavesResult_setAluFlags_setReg (lowReg_ne_pc rd) v c ov⟩

theorem thumbTest_leaves {s : State} {i : Instr} {a : Alu} {v : Word} {c ov : Bool}
    (run : exec i s = thumbTest a s) (alu : a = logical v c ov) :
    ∃ t, exec i s = .next t ∧ LeavesFlags s t v c ov := by
  rw [run, alu]
  exact ⟨_, rfl, s.leavesFlags_setAluFlags v c ov⟩

/-! ## Shifts and logical instructions (R392 to R394, R399, R403 to R407, R410, R411, R415, R417, R418) -/

/-- Settles O40: each operation ends as a logical result, whose C is the shift's carry or the old C (R434). -/
theorem thumbShiftAndLogic : Obligations.ThumbShiftAndLogic := by
  intro s rs rd n imm8 x d k m n32
  refine ⟨fun p member => ?_, thumbTest_leaves (exec_thumbTst ..) rfl⟩
  simp only [List.mem_cons, List.not_mem_nil, or_false] at member
  rcases member with rfl | rfl | rfl | rfl | rfl | rfl | rfl | rfl | rfl | rfl | rfl | rfl | rfl
  · exact thumbWrite_leaves (exec_thumbLslImm ..) rfl
  · exact thumbWrite_leaves (exec_thumbLsrImm ..) rfl
  · exact thumbWrite_leaves (exec_thumbAsrImm ..) rfl
  · exact thumbWrite_leaves (exec_thumbLslReg ..) rfl
  · exact thumbWrite_leaves (exec_thumbLsrReg ..) rfl
  · exact thumbWrite_leaves (exec_thumbAsrReg ..) rfl
  · exact thumbWrite_leaves (exec_thumbRor ..) rfl
  · exact thumbWrite_leaves (exec_thumbMovImm ..) rfl
  · exact thumbWrite_leaves (exec_thumbAnd ..) rfl
  · exact thumbWrite_leaves (exec_thumbEor ..) rfl
  · exact thumbWrite_leaves (exec_thumbOrr ..) rfl
  · exact thumbWrite_leaves (exec_thumbBic ..) rfl
  · exact thumbWrite_leaves (exec_thumbMvn ..) rfl

/-! ## Additions, subtractions and compares (R395 to R398, R400 to R402, R408, R409, R412 to R414, R426) -/

section
variable {w : Nat} (imm : BitVec w) (narrow : w < 32)
include narrow

/-- An immediate is never negative: as a signed word too it is the number in its field. -/
theorem toInt_zeroExtend_of_lt : (imm.zeroExtend 32).toInt = imm.toNat := by
  have value : (imm.zeroExtend 32).toNat = imm.toNat := BitVec.toNat_setWidth_of_le narrow.le
  have small : 2 * imm.toNat < 2 ^ 32 := by
    calc 2 * imm.toNat < 2 * 2 ^ w := by omega
      _ = 2 ^ (w + 1) := by rw [Nat.pow_succ, Nat.mul_comm]
      _ ≤ 2 ^ 32 := Nat.pow_le_pow_right (by decide) narrow
  rw [BitVec.toInt_eq_toNat_of_lt (by rwa [value]), value]

theorem addWithCarry_imm_eq (x : Word) :
    addWithCarry x (imm.zeroExtend 32) false = logical (BitVec.ofInt 32 (x.toInt + imm.toNat))
      (decide (2 ^ 32 ≤ x.toNat + imm.toNat)) (overflows (x.toInt + imm.toNat)) := by
  rw [addWithCarry_false_eq, toInt_zeroExtend_of_lt imm narrow, BitVec.toNat_setWidth_of_le narrow.le]

theorem addWithCarry_not_imm_eq (x : Word) :
    addWithCarry x (~~~(imm.zeroExtend 32)) true = logical (BitVec.ofInt 32 (x.toInt - imm.toNat))
      (decide (imm.toNat ≤ x.toNat)) (overflows (x.toInt - imm.toNat)) := by
  rw [addWithCarry_not_true_eq, toInt_zeroExtend_of_lt imm narrow, BitVec.toNat_setWidth_of_le narrow.le]

end

/-- Nothing is borrowed from zero only when zero is subtracted (R412). -/
theorem addWithCarry_zero_not_eq (x : Word) :
    addWithCarry 0 (~~~x) true =
      logical (BitVec.ofInt 32 (-x.toInt)) (decide (x.toNat = 0)) (overflows (-x.toInt)) := by
  rw [addWithCarry_not_true_eq]
  simp

/-- Settles O41: each operation is a sum or a difference of the adder (R241). -/
theorem thumbArithmetic : Obligations.ThumbArithmetic := by
  intro s rn rs rd rm hd imm3 imm8 x d y k borrow
  refine ⟨fun p member => ?_, fun p member sound => ?_⟩
  · simp only [List.mem_cons, List.not_mem_nil, or_false] at member
    rcases member with rfl | rfl | rfl | rfl | rfl | rfl | rfl | rfl | rfl
    · exact thumbWrite_leaves (exec_thumbAddReg ..) (addWithCarry_false_eq x y)
    · exact thumbWrite_leaves (exec_thumbSubReg ..) (addWithCarry_not_true_eq x y)
    · exact thumbWrite_leaves (exec_thumbAddImm3 ..) (addWithCarry_imm_eq imm3 (by decide) x)
    · exact thumbWrite_leaves (exec_thumbSubImm3 ..) (addWithCarry_not_imm_eq imm3 (by decide) x)
    · exact thumbWrite_leaves (exec_thumbAddImm8 ..) (addWithCarry_imm_eq imm8 (by decide) d)
    · exact thumbWrite_leaves (exec_thumbSubImm8 ..) (addWithCarry_not_imm_eq imm8 (by decide) d)
    · exact thumbWrite_leaves (exec_thumbAdc ..) (addWithCarry_eq d x s.flagC)
    · exact thumbWrite_leaves (exec_thumbSbc ..) (addWithCarry_not_eq d x s.flagC)
    · exact thumbWrite_leaves (exec_thumbNeg ..) (addWithCarry_zero_not_eq x)
  · simp only [List.mem_cons, List.not_mem_nil, or_false] at member
    rcases member with rfl | rfl | rfl | rfl
    · exact thumbTest_leaves (exec_thumbCmpImm ..) (addWithCarry_not_imm_eq imm8 (by decide) d)
    · exact thumbTest_leaves (exec_thumbCmpReg ..) (addWithCarry_not_true_eq d x)
    · exact thumbTest_leaves (exec_thumbCmn ..) (addWithCarry_false_eq d x)
    · have run := (exec_thumbCmpHi rm hd s).trans (State.unconditional_effect _ sound)
      exact thumbTest_leaves run (addWithCarry_not_true_eq (s.reg hd) (s.reg rm))

/-! ## High registers and addresses (R425, R427, R428, R430 to R433)

All six end in the shared write of a destination: a branch when it is r15, else a register written (R28, R29). -/

theorem State.finish_pc (v : Word) (s : State) : s.finish 15 v = s.branchTo v := if_pos rfl

theorem State.finish_general {rd : Reg} (general : rd ≠ 15) (v : Word) (s : State) :
    s.finish rd v = (s.setReg rd v).advance := if_neg general

theorem State.len_of_thumb {s : State} (thumb : s.thumb = true) : s.len = 2 := if_pos thumb

theorem State.pcBase_of_thumb {s : State} (thumb : s.thumb = true) : s.pcBase = (s.pc + 4) &&& 0xfffffffc := by
  rw [State.pcBase, State.pcRead, State.len_of_thumb thumb, BitVec.add_assoc]
  rfl

theorem exec_thumbAddPc {s : State} (thumb : s.thumb = true) (rd : LowReg) (word8 : BitVec 8) :
    exec (.thumbAddPc rd word8) s =
      .next (s.finish rd.reg (((s.pc + 4) &&& 0xfffffffc) + BitVec.ofNat 32 (4 * word8.toNat))) := by
  rw [State.finish_general (lowReg_ne_pc rd), ← State.pcBase_of_thumb thumb, ← wordOffset_eq word8 (by decide)]
  rfl

theorem exec_thumbAddSp (rd : LowReg) (word8 : BitVec 8) (s : State) : exec (.thumbAddSp rd word8) s =
    .next (s.finish rd.reg (s.reg 13 + BitVec.ofNat 32 (4 * word8.toNat))) := by
  rw [State.finish_general (lowReg_ne_pc rd), ← wordOffset_eq word8 (by decide)]
  rfl

theorem exec_thumbIncSp (word7 : BitVec 7) (s : State) : exec (.thumbIncSp word7) s =
    .next (s.finish 13 (s.reg 13 + BitVec.ofNat 32 (4 * word7.toNat))) := by
  rw [State.finish_general (by decide), ← wordOffset_eq word7 (by decide)]
  rfl

theorem exec_thumbDecSp (word7 : BitVec 7) (s : State) : exec (.thumbDecSp word7) s =
    .next (s.finish 13 (s.reg 13 - BitVec.ofNat 32 (4 * word7.toNat))) := by
  rw [State.finish_general (by decide), ← wordOffset_eq word7 (by decide)]
  rfl

/-- The write of a destination in Thumb state: a branch that stays there, or a register and the next
instruction; the status register is as before. -/
theorem finish_leaves_of_thumb {s : State} {i : Instr} {rd : Reg} {v : Word} (run : exec i s = .next (s.finish rd v))
    (thumb : s.thumb = true) :
    ∃ t, exec i s = .next t ∧ t.cpsr = s.cpsr ∧
      if rd = 15 then t.pc = v &&& 0xfffffffe ∧ t.pipe = [] ∧ OnlyRegisters [] s t
      else t.reg rd = v ∧ t.pc = s.pc + 2 ∧ OnlyRegisters [phys s.mode rd] s t := by
  rw [run]
  split
  · next toPc =>
    rw [toPc, State.finish_pc]
    have target : (s.branchTo v).pc = v &&& 0xfffffffe := by
      rw [State.branchTo_pc, alignPc_eq_and, thumb]
      rfl
    exact ⟨_, rfl, rfl, target, rfl, State.onlyRegisters_branchTo s.onlyRegisters_refl v⟩
  · next general =>
    rw [State.finish_general general]
    obtain ⟨result, pc, only, cpsr⟩ := State.leavesResult_setReg general v false false s
    rw [State.len_of_thumb thumb] at pc
    exact ⟨_, rfl, cpsr, result, pc, only⟩

/-- Settles O42: all six end in that write, of the sum or the copy listed beside each. -/
theorem thumbHighAndAddress : Obligations.ThumbHighAndAddress := by
  intro s rm hd rd word8 word7 thumb p member sound
  have run : exec p.1 s = .next (s.finish p.2.1 p.2.2) := by
    simp only [List.mem_cons, List.not_mem_nil, or_false] at member
    rcases member with rfl | rfl | rfl | rfl | rfl | rfl
    · exact (exec_thumbAddHi rm hd s).trans (State.unconditional_effect _ sound)
    · exact (exec_thumbMovHi rm hd s).trans (State.unconditional_effect _ sound)
    · exact exec_thumbAddPc thumb rd word8
    · exact exec_thumbAddSp rd word8 s
    · exact exec_thumbIncSp word7 s
    · exact exec_thumbDecSp word7 s
  exact finish_leaves_of_thumb run thumb

end Sys2Proof.Machine
end

section
/-! # Thumb branches and branches with link (R475, R481 to R484) -/

namespace Sys2Proof.Machine

/-! ## Targets -/

theorem State.pcRead_of_thumb {s : State} (thumb : s.thumb = true) : s.pcRead = s.pc + 4 := by
  rw [State.pcRead, State.len_of_thumb thumb, BitVec.add_assoc]
  rfl

/-- A branch offset in halfwords, as twice the signed number it is. -/
theorem halfwordOffset_eq {w : Nat} (offset : BitVec w) :
    (offset ++ 0#1).signExtend 32 = BitVec.ofInt 32 (2 * offset.toInt) := by
  rw [BitVec.signExtend, BitVec.toInt_append_zero]
  rfl

/-- An even distance from an aligned address of Thumb state is aligned (R26). -/
theorem alignPc_add_even {pc : Word} (aligned : alignPc true pc = pc) (k : Int) :
    alignPc true (pc + 4 + BitVec.ofInt 32 (2 * k)) = pc + 4 + BitVec.ofInt 32 (2 * k) := by
  have bytes : instrBytes true = 2 := rfl
  rw [alignPc_eq_self_iff, bytes] at aligned ⊢
  rw [BitVec.toNat_add, BitVec.toNat_add, BitVec.toNat_ofInt, show (4 : Word).toNat = 4 from rfl]
  omega

/-! ## Thumb B and conditional B (R475, R481) -/

theorem exec_thumbBCond (c : Cond) (offset : BitVec 8) (s : State) : exec (.thumbBCond c offset) s =
    s.conditional c none fun s => .next (s.branchTo (s.pcRead + BitVec.ofInt 32 (2 * offset.toInt))) := by
  rw [← halfwordOffset_eq]
  rfl

theorem exec_thumbB (offset : BitVec 11) (s : State) : exec (.thumbB offset) s =
    .next (s.branchTo (s.pcRead + BitVec.ofInt 32 (2 * offset.toInt))) := by
  rw [← halfwordOffset_eq]
  rfl

/-- What a taken branch of Thumb state leaves (R28). -/
theorem State.branches_of_thumb {s : State} {i : Instr} {k : Int} (thumb : s.thumb = true)
    (aligned : alignPc true s.pc = s.pc)
    (run : exec i s = .next (s.branchTo (s.pcRead + BitVec.ofInt 32 (2 * k)))) :
    ∃ t, exec i s = .next t ∧ t.pc = s.pc + 4 + BitVec.ofInt 32 (2 * k) ∧ t.pipe = [] ∧ t.cpsr = s.cpsr ∧
      OnlyRegisters [] s t := by
  refine ⟨_, run, ?_, rfl, rfl, State.onlyRegisters_branchTo s.onlyRegisters_refl _⟩
  rw [State.branchTo_pc, thumb, State.pcRead_of_thumb thumb, alignPc_add_even aligned]

/-- The word of a conditional branch has the code of its condition; b1110 is not among them (R475). -/
theorem decode_thumbBCond {c : Cond} {k : BitVec 4} (offset : BitVec 8) (code : k ≠ 14)
    (named : Cond.ofBits k = some c) : decode (.thumb (0b1101#4 ++ k ++ offset)) = .ok (.thumbBCond c offset) := by
  obtain rfl : c.bits = k := Cond.ofBits_eq_some.1 named
  refine decodeThumb_of_encode (i := .thumbBCond c offset) rfl ?_
  simp only [Instr.encodable, bne_iff_ne]
  rintro rfl
  exact code rfl

/-- Settles O22: the words are those of the encoder, and the branches go where their offset says. -/
theorem thumbBranch : Obligations.ThumbBranch := by
  intro s c off8 off11
  refine ⟨fun k code named => decode_thumbBCond off8 code named,
    decodeThumb_of_encode (i := .thumbUndefDe off8) rfl rfl, decodeThumb_of_encode (i := .thumbSwi off8) rfl rfl,
    decodeThumb_of_encode (i := .thumbB off11) rfl rfl, fun thumb aligned => ⟨fun passes => ?_, fun fails => ?_, ?_⟩⟩
  · exact State.branches_of_thumb thumb aligned
      ((exec_thumbBCond c off8 s).trans (State.conditional_passes _ passes))
  · obtain ⟨t, run, pc, cpsr, only⟩ := failedConditionDoesNothing (.thumbBCond c off8) c s rfl fails
    refine ⟨t, run, ?_, cpsr, only⟩
    rw [pc, State.len_of_thumb thumb]
  · exact State.branches_of_thumb thumb aligned (exec_thumbB off11 s)

/-! ## Thumb BL (R482 to R484) -/

theorem exec_thumbBlHigh (offset : BitVec 11) (s : State) : exec (.thumbBlHigh offset) s =
    .next (s.finish 14 (s.pcRead + BitVec.ofInt 32 (4096 * offset.toInt))) := by
  have bytes : (offset ++ 0#12).signExtend 32 = BitVec.ofInt 32 (4096 * offset.toInt) := by
    rw [BitVec.signExtend, BitVec.toInt_append_zero]
    rfl
  rw [State.finish_general (by decide), ← bytes]
  rfl

theorem exec_thumbBlLow (offset : BitVec 11) (s : State) : exec (.thumbBlLow offset) s =
    .next ((s.setReg 14 ((s.pc + s.len) ||| 1)).branchTo (s.reg 14 + BitVec.ofNat 32 (2 * offset.toNat))) := by
  have bytes : (offset ++ 0#1).zeroExtend 32 = BitVec.ofNat 32 (2 * offset.toNat) :=
    zeroExtend_append_zero offset 1 (by decide)
  rw [← bytes]
  rfl

/-- The suffix, from any r14 (R483, R484). -/
theorem State.thumbBlLow_links {s : State} (thumb : s.thumb = true) (lo : BitVec 11) :
    ∃ u, exec (.thumbBlLow lo) s = .next u ∧
      u.pc = (s.reg 14 + BitVec.ofNat 32 (2 * lo.toNat)) &&& 0xfffffffe ∧ u.reg 14 = (s.pc + 2) ||| 1 ∧
      u.cpsr = s.cpsr ∧ u.pipe = [] ∧ OnlyRegisters [phys s.mode 14] s u := by
  refine ⟨_, exec_thumbBlLow lo s, ?_, ?_, State.setReg_cpsr .., rfl,
    State.onlyRegisters_branchTo (s.onlyRegisters_setReg ..) _⟩
  · rw [State.branchTo_pc, State.thumb_setReg, thumb, alignPc_eq_and]
    rfl
  · rw [State.reg_branchTo _ _ (by decide), State.reg_setReg _ _ _ _ (by decide), if_pos rfl,
      State.len_of_thumb thumb]

/-- The first half (R482). -/
theorem State.thumbBlHigh_prepares {s : State} (thumb : s.thumb = true) (hi : BitVec 11) :
    ∃ t, exec (.thumbBlHigh hi) s = .next t ∧ t.reg 14 = s.pc + 4 + BitVec.ofInt 32 (4096 * hi.toInt) ∧
      t.pc = s.pc + 2 ∧ t.cpsr = s.cpsr ∧ OnlyRegisters [phys s.mode 14] s t := by
  obtain ⟨t, run, cpsr, link⟩ := finish_leaves_of_thumb (exec_thumbBlHigh hi s) thumb
  rw [if_neg (by decide), State.pcRead_of_thumb thumb] at link
  obtain ⟨link, pc, only⟩ := link
  exact ⟨t, run, link, pc, cpsr, only⟩

/-- The pair's target is aligned, so clearing bit 0 leaves it (R483). -/
theorem linkTarget_eq {pc : Word} (aligned : alignPc true pc = pc) (hi lo : BitVec 11) :
    (pc + 4 + BitVec.ofInt 32 (4096 * hi.toInt) + BitVec.ofNat 32 (2 * lo.toNat)) &&& 0xfffffffe =
      pc + 4 + BitVec.ofInt 32 (4096 * hi.toInt + 2 * lo.toNat) := by
  have sum : pc + 4 + BitVec.ofInt 32 (4096 * hi.toInt) + BitVec.ofNat 32 (2 * lo.toNat) =
      pc + 4 + BitVec.ofInt 32 (4096 * hi.toInt + 2 * lo.toNat) := by
    rw [BitVec.add_assoc, BitVec.ofInt_add, ← BitVec.ofInt_natCast]
    rfl
  have even : 4096 * hi.toInt + 2 * (lo.toNat : Int) = 2 * (2048 * hi.toInt + lo.toNat) := by omega
  rw [sum, even]
  exact (alignPc_eq_and true _).symm.trans (alignPc_add_even aligned _)

/-- Settles O23: the suffix runs from the state the first half leaves. -/
theorem thumbBranchLink : Obligations.ThumbBranchLink := by
  refine ⟨fun s lo thumb => State.thumbBlLow_links thumb lo, fun s hi lo thumb aligned => ?_⟩
  obtain ⟨t, prepares, link, pc, cpsr, only⟩ := State.thumbBlHigh_prepares thumb hi
  have thumb' : t.thumb = true := by rw [State.thumb, cpsr]; exact thumb
  obtain ⟨u, links, pc', link', cpsr', -, only'⟩ := State.thumbBlLow_links thumb' lo
  rw [State.mode_congr cpsr] at only'
  refine ⟨t, u, prepares, links, link, pc, cpsr, only, ?_, ?_, cpsr'.trans cpsr, only.trans only'⟩
  · rw [pc', link, linkTarget_eq aligned]
  · rw [link', pc, BitVec.add_assoc]
    rfl

end Sys2Proof.Machine
end

section
/-! # Interrupts, and the return from an exception (R243, R501 to R506, R520, R521) -/

namespace Sys2Proof.Machine

/-! ## Interrupts (R506, R520, R521) -/

/-- With DBGEN LOW interrupts pass (R523, R545). -/
theorem State.ifen_undebugged {s : State} (off : s.pins.dbgen = false) : s.ifen = true := by
  simp [State.ifen, State.dbgack, off]

/-- The boundary of a machine with no debugger at which an interrupt is pending takes it. -/
theorem State.coreStep_interrupted {s t : State} (stuck : s.stuck = none) (ack : s.dbg.ack = false)
    (off : s.pins.dbgen = false) (top : s.offTop = false) (pending : s.interrupt = some t) :
    s.coreStep = .next t := by
  unfold State.coreStep
  simp [stuck, ack, off, top, pending, State.debugRequested]

theorem step_of_no_event {s : State} (schedule : s.schedule = []) : step s = s.coreStep := by
  rw [step, State.stepOnce, schedule]

/-- Settles O26. -/
theorem interruptEntry : Obligations.InterruptEntry := by
  intro s schedule stuck ack off top fiq irq
  have fiqPending : s.fiqPending = fiq := by rw [State.fiqPending, State.ifen_undebugged off, Bool.and_true]
  have irqPending : s.irqPending = irq := by rw [State.irqPending, State.ifen_undebugged off, Bool.and_true]
  have enters {e : Exc} {ret : Word} (pending : s.interrupt = some (s.enter e ret)) :
      ∃ t, step s = .next t ∧ Entered e ret s t ∧ SameOutside s t :=
    ⟨_, (step_of_no_event schedule).trans (State.coreStep_interrupted stuck ack off top pending),
      State.entered .., State.enter_outside ..⟩
  refine ⟨fun first => enters ?_, fun none second => enters ?_⟩
  · rw [State.interrupt, fiqPending, if_pos first]
    rfl
  · rw [State.interrupt, fiqPending, none, if_neg Bool.false_ne_true, irqPending, if_pos second]
    rfl

/-! ## The return (R243, R505) -/

theorem State.mode_enter (e : Exc) (ret : Word) (s : State) : (s.enter e ret).mode = e.mode := by
  rw [State.mode, (s.entered e ret).mode]
  cases e <;> rfl

/-- The instruction of a return reads the link. -/
theorem State.reg_enter (e : Exc) (ret : Word) (s : State) : (s.enter e ret).reg 14 = ret := by
  rw [State.reg, if_neg (by decide)]
  simp only [State.mode_enter]
  exact (s.entered e ret).link

/-- An instruction with S = 1 that writes r15 in an exception's handler returns to the CPSR and, aligned for its
state, to the value it computes (R243). -/
theorem State.enter_returns {s : State} (legal : legalMode s.cpsr = true) (e : Exc) (ret : Word) {rn : Reg}
    {op2 : Operand2} {p : Instr × Word} (member : p ∈ (s.enter e ret).dataProcResults .al true rn 15 op2)
    (sound : p.1.broken = none) {pc : Word} (target : p.2 = pc) (aligned : alignPc s.thumb pc = pc) :
    ∃ t, exec p.1 (s.enter e ret) = .next t ∧ t.cpsr = s.cpsr ∧ t.pc = pc ∧
      SameRegsBut [phys e.mode 14] s t ∧ ∀ a, t.byteAt a = s.byteAt a := by
  have entered := s.entered e ret
  have returns := (armResultToPc (s.enter e ret) .al rn op2 rfl).2 p member sound
  rw [State.mode_enter, entered.saved] at returns
  simp only [legal, if_true] at returns
  obtain ⟨t, run, cpsr, -, t_pc, only⟩ := returns
  refine ⟨t, run, cpsr, ?_, fun k out => ?_, fun a => ?_⟩
  · rw [t_pc, target]
    exact (alignPc_eq_and s.thumb pc).symm.trans aligned
  · exact (only.regs k (List.not_mem_nil)).trans (entered.regs k out)
  · exact (only.bytes a).trans ((s.enter_outside e ret).bytes a)

/-- MOVS PC, r14 returns to the link (R505). -/
theorem State.movs_returns {s : State} (legal : legalMode s.cpsr = true) (e : Exc) {ret : Word}
    (aligned : alignPc s.thumb ret = ret) :
    ∃ t, exec (.armMov .al true 15 (.shiftImm .lsl 0 14)) (s.enter e ret) = .next t ∧ t.cpsr = s.cpsr ∧ t.pc = ret ∧
      SameRegsBut [phys e.mode 14] s t ∧ ∀ a, t.byteAt a = s.byteAt a := by
  have value : ((s.enter e ret).operand2 (.shiftImm .lsl 0 14)).value = ret := s.reg_enter e ret
  refine State.enter_returns legal e ret (rn := 0) (op2 := .shiftImm .lsl 0 14) (p := (_, _)) ?_ rfl value aligned
  simp [State.dataProcResults]

/-- SUBS PC, r14, #k returns to the link less k (R505). -/
theorem State.subs_returns {s : State} (legal : legalMode s.cpsr = true) (e : Exc) {pc : Word} (k : BitVec 8)
    (aligned : alignPc s.thumb pc = pc) :
    ∃ t, exec (.armSub .al true 14 15 (.imm 0 k)) (s.enter e (pc + k.zeroExtend 32)) = .next t ∧
      t.cpsr = s.cpsr ∧ t.pc = pc ∧ SameRegsBut [phys e.mode 14] s t ∧ ∀ a, t.byteAt a = s.byteAt a := by
  have value : (s.enter e (pc + k.zeroExtend 32)).reg 14 -
      ((s.enter e (pc + k.zeroExtend 32)).operand2 (.imm 0 k)).value = pc := by
    have unrotated : (k.zeroExtend 32).rotateRight 0 = k.zeroExtend 32 := by simp [BitVec.rotateRight_def]
    rw [State.reg_enter]
    exact (congrArg (pc + k.zeroExtend 32 - ·) unrotated).trans (BitVec.add_sub_cancel ..)
  refine State.enter_returns legal e _ (rn := 14) (op2 := .imm 0 k) (p := (_, _)) ?_ rfl value aligned
  simp [State.dataProcResults]

/-- Settles O28. -/
theorem returnRestoresProgram : Obligations.ReturnRestoresProgram := by
  intro s legal aligned movs subs p member
  have next : alignPc s.thumb (s.pc + s.len) = s.pc + s.len := alignPc_add_one_len s s.pc aligned
  simp only [List.mem_cons, List.not_mem_nil, or_false] at member
  rcases member with rfl | rfl | rfl | rfl | rfl | rfl
  · exact State.movs_returns legal .softwareInterrupt next
  · exact State.movs_returns legal .undefined next
  · exact State.subs_returns legal .irq 4 aligned
  · exact State.subs_returns legal .fiq 4 aligned
  · exact State.subs_returns legal .prefetchAbort 4 aligned
  · exact State.subs_returns legal .dataAbort 8 aligned

end Sys2Proof.Machine
end

section
/-! # Thumb block transfers (R468 to R471) -/

namespace Sys2Proof.Machine

/-! ## The register lists -/

/-- PUSH and POP append one register to the low ones. -/
theorem append_ite_nil {α : Type} (extra : Bool) (l : List α) (x : α) :
    (l ++ if extra then [x] else []) = if extra then l ++ [x] else l := by
  cases extra
  · exact List.append_nil l
  · rfl

/-- Every register of a Thumb list is a low one. -/
theorem low_of_mem {list : BitVec 8} {i : Reg} (listed : i ∈ listedRegs list) : i.toNat < 8 :=
  BitVec.lt_of_getLsbD ((mem_listedRegs (by decide) list i).1 listed)

/-- The registers PUSH stores: the low ones of the list, and r14 for the extra bit. -/
def pushRegs (extra : Bool) (list : BitVec 8) : List Reg := if extra then listedRegs list ++ [14] else listedRegs list

/-- The registers POP loads: the low ones of the list, and r15 for the extra bit. -/
def popRegs (extra : Bool) (list : BitVec 8) : List Reg := if extra then listedRegs list ++ [15] else listedRegs list

theorem mem_popRegs {extra : Bool} {list : BitVec 8} {i : Reg} :
    i ∈ popRegs extra list ↔ i ∈ listedRegs list ∨ extra = true ∧ i = 15 := by
  cases extra <;> simp [popRegs]

theorem popRegs_nodup (extra : Bool) (list : BitVec 8) : (popRegs extra list).Nodup := by
  have low := listedRegs_nodup (by decide) list
  cases extra
  · exact low
  · exact low.append (List.nodup_singleton 15) (by simpa using pc_not_mem_lowRegs list)

theorem filter_popRegs (extra : Bool) (list : BitVec 8) : (popRegs extra list).filter (· ≠ 15) = listedRegs list := by
  have low : (listedRegs list).filter (· ≠ 15) = listedRegs list :=
    List.filter_eq_self.2 fun i listed => decide_eq_true fun pc => pc_not_mem_lowRegs list (pc ▸ listed)
  cases extra
  · exact low
  · rw [popRegs, if_pos rfl, List.filter_append, low]
    simp

/-! ## The instructions -/

section
variable {s : State} {extra : Bool} {rb : LowReg} {list : BitVec 8}

theorem State.exec_thumbPush (sound : pushRestriction extra list = none) :
    exec (.thumbPush extra list) s =
      s.storeMultiple (s.reg 13 - listBytes (pushRegs extra list)) 13
        (some (s.reg 13 - listBytes (pushRegs extra list))) ((pushRegs extra list).map s.reg) State.advance := by
  rw [pushRegs, ← append_ite_nil]
  show execThumbPush extra list s = _
  exact State.unconditional_effect _ sound

theorem State.exec_thumbPop (sound : pushRestriction extra list = none) :
    exec (.thumbPop extra list) s =
      s.loadMultiple ⟨s.reg 13, 13, some (s.reg 13 + listBytes (popRegs extra list)), popRegs extra list, s.mode⟩
        (endLoad (popRegs extra list)) := by
  rw [popRegs, ← append_ite_nil]
  show execThumbPop extra list s = _
  exact State.unconditional_effect _ sound

theorem State.exec_thumbStmia (sound : thumbStmiaRestriction rb list = none) :
    exec (.thumbStmia rb list) s =
      s.storeMultiple (s.reg rb.reg) rb.reg (some (s.reg rb.reg + listBytes (listedRegs list)))
        ((listedRegs list).map s.reg) State.advance := by
  have values : s.storedValues (listedRegs list) = (listedRegs list).map s.reg :=
    List.map_congr_left fun i listed => if_neg fun pc : i = 15 => pc_not_mem_lowRegs list (pc ▸ listed)
  rw [← values]
  show execThumbStmia rb list s = _
  exact State.unconditional_effect _ sound

theorem State.exec_thumbLdmia (sound : thumbLdmiaRestriction rb list = none) :
    exec (.thumbLdmia rb list) s =
      s.loadMultiple ⟨s.reg rb.reg, rb.reg, some (s.reg rb.reg + listBytes (listedRegs list)), listedRegs list, s.mode⟩
        (endLoad (listedRegs list)) := by
  show execThumbLdmia rb list s = _
  exact State.unconditional_effect _ sound

end

/-! ## What they leave -/

/-- A block store of Thumb state that is let through: the words in memory, the base updated (R468, R470). -/
theorem State.thumbStore_leaves {s : State} {i : Instr} {start newBase : Word} {rn : Reg} {values pas : List Word}
    (base : rn ≠ 15) (run : exec i s = s.storeMultiple start rn (some newBase) values State.advance) (quiet : s.Quiet)
    (writes : s.WritesWords .blockWrite s.privileged start values pas) :
    ∃ t, exec i s = .next t ∧ t.pc = s.pc + s.len ∧ t.reg rn = newBase ∧ OnlyTransfer [phys s.mode rn] s t ∧
      ∀ a, t.byteAt a = (storedWords s.platform.bigEndian pas values a).getD (s.byteAt a) := by
  obtain ⟨ms, stores, tests, bytes⟩ := State.storeMultiple_writes quiet writes rn (some newBase) State.advance
  exact ⟨_, run.trans stores, rfl, State.reg_base (s := s) base rfl rfl,
    State.onlyTransfer_of_regs (s.sameRegs_baseRegs rn true newBase) tests _ _ _ _, bytes⟩

/-- A block load of Thumb state that is let through: the words in the low registers, r15's as a branch, and the
base updated, which is not among the registers loaded (R469, R471). -/
theorem State.thumbLoad_leaves {s : State} {i : Instr} {start newBase : Word} {rn : Reg} {extra : Bool}
    {list : BitVec 8} {ws : List Word} (base : rn ≠ 15) (apart : rn ∉ listedRegs list)
    (run : exec i s = s.loadMultiple ⟨start, rn, some newBase, popRegs extra list, s.mode⟩
      (endLoad (popRegs extra list)))
    (quiet : s.Quiet) (length : ws.length = (popRegs extra list).length)
    (reads : s.ReadsWords .blockRead s.privileged start ws) :
    ∃ t, exec i s = .next t ∧ t.reg rn = newBase ∧
      (∀ q ∈ (popRegs extra list).zip ws, if q.1 = 15 then t.pc = q.2 &&& (if s.thumb then 0xfffffffe else 0xfffffffc)
        else t.reg q.1 = q.2) ∧
      (extra = false → t.pc = s.pc + s.len) ∧
      OnlyLoad (phys s.mode rn :: (listedRegs list).map (phys s.mode)) s t := by
  have nodup := popRegs_nodup extra list
  have distinct : ∀ j ∈ popRegs extra list, j ≠ 15 → phys s.mode j ≠ phys s.mode rn := by
    intro j listed general same
    obtain rfl : j = rn := (phys_inj s.mode j rn general base).1 same
    rcases mem_popRegs.1 listed with low | ⟨-, pc⟩
    · exact apart low
    · exact general pc
  obtain ⟨ms, r, loads, kept, loaded⟩ := State.loadMultiple_reads (wb := true) (v := newBase) quiet reads length nodup
    (fun _ => ⟨base, distinct⟩) (endLoad (popRegs extra list))
  have only := loaded.rest.mono (ls := phys s.mode rn :: (listedRegs list).map (phys s.mode)) (by
    rw [filter_popRegs, if_pos rfl]
    intro k listed
    simpa [or_comm] using listed)
  cases extra with
  | true =>
    have pc : 15 ∈ popRegs true list := mem_popRegs.2 (.inr ⟨rfl, rfl⟩)
    rw [endLoad, if_pos (List.contains_iff_mem.2 pc)] at loads
    obtain ⟨words, written⟩ :=
      loaded.reads (t := State.branchTo _ { s with memsys := ms, regs := r }) rfl rfl fun _ => base
    refine ⟨_, run.trans loads, written rfl, fun q word => ?_, nofun, State.onlyLoad_of_regs only kept _ _ _ _⟩
    split
    · next isPc =>
      obtain ⟨j, v⟩ := q
      obtain rfl : j = 15 := isPc
      rw [State.branchTo_pc, Block.pcWord_of_mem nodup word]
      exact alignPc_eq_and s.thumb v
    · next general => exact words q word general
  | false =>
    have noPc : 15 ∉ popRegs false list := pc_not_mem_lowRegs list
    rw [endLoad, if_neg (mt List.contains_iff_mem.1 noPc)] at loads
    obtain ⟨words, written⟩ := loaded.reads (t := State.advance { s with memsys := ms, regs := r }) rfl rfl fun _ => base
    refine ⟨_, run.trans loads, written rfl, fun q word => ?_, fun _ => rfl, State.onlyLoad_of_regs only kept _ _ _ _⟩
    have general : q.1 ≠ 15 := fun isPc => noPc (isPc ▸ (List.of_mem_zip word).1)
    rw [if_neg general]
    exact words q word general

/-- Settles O36. -/
theorem thumbMultiple : Obligations.ThumbMultiple := by
  intro s extra rb list ws pas quiet low push pop sp up p big
  refine ⟨fun sound writes => ?_, fun sound length reads => ?_, fun sound writes => ?_, fun sound length reads => ?_⟩
  · exact State.thumbStore_leaves (by decide) (State.exec_thumbPush sound) quiet writes
  · exact State.thumbLoad_leaves (by decide) (fun listed => absurd (low_of_mem listed) (by decide))
      (State.exec_thumbPop sound) quiet length reads
  · exact State.thumbStore_leaves (lowReg_ne_pc rb) (State.exec_thumbStmia sound) quiet writes
  · obtain ⟨t, run, base, words, pc, only⟩ := State.thumbLoad_leaves (extra := false) (lowReg_ne_pc rb)
      (thumbLdmiaRestriction_iff.1 sound).2 (State.exec_thumbLdmia sound) quiet length reads
    refine ⟨t, run, pc rfl, base, fun q word => ?_, only⟩
    have general : q.1 ≠ 15 := fun isPc => pc_not_mem_lowRegs list (isPc ▸ (List.of_mem_zip word).1)
    have word := words q word
    rwa [if_neg general] at word

end Sys2Proof.Machine
end

section
/-! # The stuck states (R33, R35, R574) -/

namespace Sys2Proof.Machine

/-- The program stands still: the stuck state, the general registers, the CPSR and the program counter are as they
were. -/
structure State.SameProgram (s t : State) : Prop where
  stuck : t.stuck = s.stuck
  regs : t.regs = s.regs
  cpsr : t.cpsr = s.cpsr
  pc : t.pc = s.pc

theorem State.SameProgram.refl (s : State) : s.SameProgram s := ⟨rfl, rfl, rfl, rfl⟩

theorem State.SameProgram.trans {s t u : State} (x : s.SameProgram t) (y : t.SameProgram u) : s.SameProgram u :=
  ⟨y.stuck.trans x.stuck, y.regs.trans x.regs, y.cpsr.trans x.cpsr, y.pc.trans x.pc⟩

theorem State.sameProgram_debug (d : Debug) (s : State) : s.SameProgram { s with dbg := d } := ⟨rfl, rfl, rfl, rfl⟩

/-! ## The debugger's registers -/

theorem State.sameProgram_scan2Read (addr : BitVec 5) (s : State) : Yields s.SameProgram (s.scan2Read addr) := by
  unfold State.scan2Read
  split
  case h_5 | h_6 =>
    split
    · exact (yields_next ..).2 (s.sameProgram_debug _)
    · exact yields_refused ..
  case h_7 => exact yields_refused ..
  all_goals exact (yields_next ..).2 ⟨rfl, rfl, rfl, rfl⟩

theorem State.sameProgram_scan2Write (addr : BitVec 5) (v : Word) (s : State) :
    Yields s.SameProgram (s.scan2Write addr v) := by
  unfold State.scan2Write
  split
  case h_5 | h_6 =>
    split
    · exact (yields_next ..).2 (s.sameProgram_debug _)
    · exact yields_refused ..
  case h_7 => exact yields_refused ..
  all_goals exact (yields_next ..).2 ⟨rfl, rfl, rfl, rfl⟩

theorem State.sameProgram_captureDr (s : State) : s.SameProgram s.captureDr := by
  have chain1 : s.SameProgram s.captureChain1 := by
    unfold State.captureChain1
    simp only
    split <;> exact ⟨rfl, rfl, rfl, rfl⟩
  have chain : s.SameProgram s.captureChain := by
    unfold State.captureChain
    split
    case h_1 => exact chain1
    all_goals exact ⟨rfl, rfl, rfl, rfl⟩
  unfold State.captureDr
  split
  case h_3 => exact chain
  all_goals exact ⟨rfl, rfl, rfl, rfl⟩

theorem State.Configures.sameProgram {s t : State} (h : s.Configures t) : s.SameProgram t := by
  rw [h.same]
  exact ⟨rfl, rfl, rfl, rfl⟩

theorem State.sameProgram_cp15Read {s t : State} {op1 : BitVec 3} {crn crm : BitVec 4} {op2 : BitVec 3} {v : Word}
    (read : s.cp15Read op1 crn crm op2 = .ok (v, t)) : s.SameProgram t := by
  rw [(State.cp15Read_ok read).2]
  have drawn : s.SameProgram s.draw.2 := ⟨rfl, rfl, rfl, rfl⟩
  exact drawn.trans (s.draw.2.configures_noteRead crn v).sameProgram

/-- An operation on CP15 through scan chain 15 (R556). -/
theorem State.sameProgram_scan15 (write : Bool) (code : BitVec 4) (v : Word) (s : State) :
    Yields s.SameProgram (s.scan15 write code v) := by
  unfold State.scan15
  split
  · exact yields_refused ..
  · split
    · split
      · split
        · next written => exact (yields_next ..).2 (State.cp15Write_configures written).sameProgram
        · exact yields_refused ..
      · exact yields_refused ..
    · split
      · split
        · next read => exact (yields_next ..).2 ((State.sameProgram_cp15Read read).trans (State.sameProgram_debug ..))
        · exact yields_refused ..
      · exact yields_refused ..

/-! ## No instruction runs -/

section
variable {s : State} {k : Stuck} (stuck : s.stuck = some k)
include stuck

theorem State.coreStep_stuck : s.coreStep = .fault k.fault := by
  rw [State.coreStep, stuck]

theorem State.runScanned_stuck (w : Word) (systemSpeed : Bool) : s.runScanned w systemSpeed = .fault k.fault := by
  rw [State.runScanned, stuck]

/-- A word scanned in waits or is discarded, but does not run (R549). -/
theorem State.sameProgram_debugInstr (w : Word) (bit33 : Bool) : Yields s.SameProgram (s.debugInstr w bit33) := by
  unfold State.debugInstr
  split
  · exact yields_refused ..
  · split
    · exact yields_refused ..
    · simp only
      split
      · exact (yields_next ..).2 (s.sameProgram_debug _)
      · split
        · exact yields_refused ..
        · split
          · exact (yields_next ..).2 (s.sameProgram_debug _)
          · rw [State.runScanned_stuck (by exact stuck)]
            exact yields_fault ..

/-- RESTART ends debug state with nothing waiting; a word that waits does not run (R549). -/
theorem State.sameProgram_restart : Yields s.SameProgram s.restart := by
  unfold State.restart
  split
  · exact (yields_next ..).2 ⟨rfl, rfl, rfl, rfl⟩
  · rw [State.runScanned_stuck (by exact stuck)]
    exact yields_fault ..

/-- No event but the reset input moves a stuck machine (R574). -/
theorem State.sameProgram_occur {e : EnvEvent} (running : ∀ v amid first reads, e ≠ .reset v amid first reads) :
    Yields s.SameProgram (s.occur e) := by
  cases e with
  | tick =>
    rw [State.occur, State.coreStep_stuck stuck]
    exact yields_fault ..
  | reset v amid first reads => exact absurd rfl (running v amid first reads)
  | interruptLines | busGrant | masterWrite | debugPins | trst | tapInstruction | captureIr =>
    exact (yields_next ..).2 ⟨rfl, rfl, rfl, rfl⟩
  | captureDr => exact (yields_next ..).2 s.sameProgram_captureDr
  | shiftBypass tdi =>
    refine (yields_next ..).2 ?_
    split <;> exact ⟨rfl, rfl, rfl, rfl⟩
  | scanPath chain =>
    refine (yields_next ..).2 ?_
    split <;> exact ⟨rfl, rfl, rfl, rfl⟩
  | scan2 write addr v =>
    unfold State.occur
    simp only
    split
    · split
      · exact s.sameProgram_scan2Write addr v
      · exact s.sameProgram_scan2Read addr
    · exact (yields_next ..).2 (.refl s)
  | scan15 write code v =>
    unfold State.occur
    simp only
    split
    · exact s.sameProgram_scan15 write code v
    · exact (yields_next ..).2 (.refl s)
  | debugInstr w bit33 =>
    unfold State.occur
    simp only
    split
    · exact (State.sameProgram_debugInstr (s := s.accessChain1) stuck w bit33).mono fun _ =>
        (s.sameProgram_debug _).trans
    · exact (yields_next ..).2 (.refl s)
  | debugData v =>
    refine (yields_next ..).2 ?_
    split <;> exact ⟨rfl, rfl, rfl, rfl⟩
  | runTestIdle =>
    unfold State.occur
    simp only
    split
    · exact (State.sameProgram_restart (s := s.openLatch) stuck).mono fun _ => (s.sameProgram_debug _).trans
    · exact (yields_next ..).2 ⟨rfl, rfl, rfl, rfl⟩

end

/-- Settles O19: the core answers a stuck machine with a fault, the other events leave the program where it is, and
the reset input clears the stuck state. -/
theorem stuckUntilReset : Obligations.StuckUntilReset := by
  intro s k stuck
  refine ⟨fun schedule t run => ?_, fun e rest schedule running t run => ?_, fun v amid pa n rest schedule => ?_⟩
  · rw [step, State.stepOnce, schedule] at run
    simp only [State.coreStep_stuck stuck] at run
    exact nomatch run
  · rw [step, State.stepOnce, schedule] at run
    obtain ⟨same, regs, cpsr, pc⟩ :=
      (State.sameProgram_occur (s := { s with schedule := rest }) stuck running).next t run
    exact ⟨same.trans stuck, regs, cpsr, pc⟩
  · rw [step, State.stepOnce, schedule]
    exact ⟨_, rfl, rfl⟩

end Sys2Proof.Machine
end

section
/-! # Breakpoints and watchpoints (R545 to R549, R552, R557) -/

namespace Sys2Proof.Machine

/-! ## The watchpoint units (R548) -/

/-- The XNOR mask comparison, bit by bit. -/
theorem bitsMatch_iff {w : Nat} (value mask x : BitVec w) : bitsMatch value mask x = true ↔ BitsOk value mask x := by
  unfold bitsMatch BitsOk
  rw [beq_iff_eq]
  constructor
  · intro same i hi
    have bit := congrArg (BitVec.getLsbD · i) same
    simp only [BitVec.getLsbD_and, BitVec.getLsbD_xor, BitVec.getLsbD_not, hi, decide_true, Bool.true_and] at bit
    revert bit
    cases value.getLsbD i <;> cases mask.getLsbD i <;> cases x.getLsbD i <;> simp
  · intro alike
    apply BitVec.eq_of_getLsbD_eq
    intro i hi
    simp only [BitVec.getLsbD_and, BitVec.getLsbD_xor, BitVec.getLsbD_not, hi, decide_true, Bool.true_and]
    rcases alike i hi with masked | same
    · simp [masked]
    · simp [same]

/-- A field of the control registers matches where each of its bits is masked or as compared. -/
theorem bitsMatch_field_iff {v m k n : Nat} (value : BitVec v) (mask : BitVec m) (x : BitVec n) :
    bitsMatch (value.extractLsb' k n) (mask.extractLsb' k n) x = true ↔
      ∀ i < n, mask.getLsbD (k + i) = true ∨ value.getLsbD (k + i) = x.getLsbD i := by
  rw [bitsMatch_iff]
  refine forall₂_congr fun i hi => ?_
  simp only [BitVec.getLsbD_extractLsb', hi, decide_true, Bool.true_and]

theorem forall_lt_three {p : Nat → Prop} : (∀ i < 3, p i) ↔ p 0 ∧ p 1 ∧ p 2 := by
  simp only [Nat.forall_lt_succ_right, Nat.not_lt_zero, false_implies, implies_true, true_and, and_assoc]

theorem forall_lt_five {p : Nat → Prop} : (∀ i < 5, p i) ↔ p 0 ∧ p 1 ∧ p 2 ∧ p 3 ∧ p 4 := by
  simp only [Nat.forall_lt_succ_right, Nat.not_lt_zero, false_implies, implies_true, true_and, and_assoc]

/-- C[4:0] of a cycle, bit by bit. -/
theorem BusCycle.control_bits (y : BusCycle) :
    y.control.getLsbD 0 = y.writes ∧ y.control.getLsbD 1 = (y.size == .half) ∧
      y.control.getLsbD 2 = (y.size == .word) ∧ y.control.getLsbD 3 = y.dataAccess ∧
      y.control.getLsbD 4 = y.priv := by
  unfold BusCycle.control
  generalize y.writes = writes, y.dataAccess = dataAccess, y.priv = priv
  cases y.size <;> revert writes dataAccess priv <;> decide

theorem WatchUnit.addressMatch_iff (u : WatchUnit) (y : BusCycle) :
    u.addressMatch y = true ↔ u.AddressMatches y := by
  obtain ⟨write, size0, size1, prot0, prot1⟩ := y.control_bits
  rw [WatchUnit.addressMatch, Bool.and_eq_true, bitsMatch_iff, bitsMatch_field_iff, forall_lt_five, write, size0,
    size1, prot0, prot1]
  simp only [WatchUnit.AddressMatches, List.forall_mem_cons, List.not_mem_nil, false_implies, implies_true, and_true,
    Nat.zero_add]

theorem WatchUnit.dataMatch_iff (u : WatchUnit) (y : BusCycle) (range chain ext : Bool) :
    u.dataMatch y range chain ext = true ↔ u.DataMatches y range chain ext := by
  have bits : (flagBit range ++ flagBit chain ++ flagBit ext : BitVec 3).getLsbD 0 = ext ∧
      (flagBit range ++ flagBit chain ++ flagBit ext : BitVec 3).getLsbD 1 = chain ∧
      (flagBit range ++ flagBit chain ++ flagBit ext : BitVec 3).getLsbD 2 = range := by
    revert range chain ext
    decide
  obtain ⟨bit5, bit6, bit7⟩ := bits
  rw [WatchUnit.dataMatch, Bool.and_eq_true, bitsMatch_iff, bitsMatch_field_iff, forall_lt_three, bit5, bit6, bit7]
  simp only [WatchUnit.DataMatches, List.forall_mem_cons, List.not_mem_nil, false_implies, implies_true, and_true,
    Nat.reduceAdd]

/-- RANGE of unit 0: unit 1 matches. -/
def Debug.rangeOut (d : Debug) (ext : BitVec 2) (inputs : Bool × Bool) (y : BusCycle) : Bool :=
  d.unit1.addressMatch y && d.unit1.dataMatch y inputs.1 inputs.2 (ext.getLsbD 1)

/-- CHAINOUT after a cycle: a latch that opens where unit 1's address and control match. -/
def Debug.chainAfter (d : Debug) (ext : BitVec 2) (inputs : Bool × Bool) (y : BusCycle) : Bool :=
  if d.unit1.addressMatch y then d.unit1.dataMatch y inputs.1 inputs.2 (ext.getLsbD 1) else d.chainOut

theorem Debug.compare_eq (d : Debug) (ext : BitVec 2) (inputs : Bool × Bool) (y : BusCycle) :
    d.compare ext inputs y =
      (((d.unit0.addressMatch y &&
            d.unit0.dataMatch y (d.rangeOut ext inputs y) (d.chainAfter ext inputs y) (ext.getLsbD 0) &&
            d.unit0.enabled) ||
          (d.rangeOut ext inputs y && d.unit1.enabled)) && !d.ctl.getLsbD 5,
        { d with chainOut := d.chainAfter ext inputs y }) := rfl

/-- A unit triggers exactly when the disable bit is clear and an enabled unit matches (R548). -/
theorem Debug.compare_triggers_iff (d : Debug) (ext : BitVec 2) (inputs : Bool × Bool) (y : BusCycle) :
    (d.compare ext inputs y).1 = true ↔ d.ctl.getLsbD 5 = false ∧
      ((d.rangeOut ext inputs y = true ∧ d.unit1.enabled = true) ∨
        (d.unit0.AddressMatches y ∧
          d.unit0.DataMatches y (d.rangeOut ext inputs y) (d.chainAfter ext inputs y) (ext.getLsbD 0) ∧
          d.unit0.enabled = true)) := by
  rw [Debug.compare_eq]
  simp only [Bool.and_eq_true, Bool.or_eq_true, Bool.not_eq_true', WatchUnit.addressMatch_iff,
    WatchUnit.dataMatch_iff, and_assoc]
  rw [and_comm, or_comm]

theorem Debug.units (d : Debug) (ext : BitVec 2) (range1 chain1 : Bool) (y : BusCycle) :
    let range := d.unit1.AddressMatches y ∧ d.unit1.DataMatches y range1 chain1 (ext.getLsbD 1)
    ∃ chain r : Bool, (r = true ↔ range) ∧
      (d.compare ext (range1, chain1) y).2 = { d with chainOut := chain } ∧
      (d.unit1.AddressMatches y → (chain = true ↔ d.unit1.DataMatches y range1 chain1 (ext.getLsbD 1))) ∧
      (¬ d.unit1.AddressMatches y → chain = d.chainOut) ∧
      ((d.compare ext (range1, chain1) y).1 = true ↔ d.ctl.getLsbD 5 = false ∧
        ((range ∧ d.unit1.ctlValue.getLsbD 8 = true) ∨
          (d.unit0.AddressMatches y ∧ d.unit0.DataMatches y r chain (ext.getLsbD 0) ∧
            d.unit0.ctlValue.getLsbD 8 = true))) := by
  have ranges : d.rangeOut ext (range1, chain1) y = true ↔
      d.unit1.AddressMatches y ∧ d.unit1.DataMatches y range1 chain1 (ext.getLsbD 1) := by
    rw [Debug.rangeOut, Bool.and_eq_true, WatchUnit.addressMatch_iff, WatchUnit.dataMatch_iff]
  refine ⟨d.chainAfter ext (range1, chain1) y, d.rangeOut ext (range1, chain1) y, ranges, rfl, fun opens => ?_,
    fun closed => ?_, ?_⟩
  · rw [Debug.chainAfter, if_pos ((d.unit1.addressMatch_iff y).2 opens), WatchUnit.dataMatch_iff]
  · exact if_neg fun opens => closed ((d.unit1.addressMatch_iff y).1 opens)
  · rw [Debug.compare_triggers_iff, ranges]
    rfl

/-! ## What fetches leave of the debug logic -/

/-- Everything of the debug logic but CHAINOUT is as it was. -/
def Debug.SameButChain (d e : Debug) : Prop := e = { d with chainOut := e.chainOut }

theorem Debug.SameButChain.refl (d : Debug) : d.SameButChain d := rfl

theorem Debug.SameButChain.trans {d e f : Debug} (x : d.SameButChain e) (y : e.SameButChain f) :
    d.SameButChain f := Eq.trans y (by rw [x])

theorem State.sameButChain_compare (y : BusCycle) (s : State) : s.dbg.SameButChain (s.compare y).2.dbg := by
  unfold State.compare
  split
  · rfl
  · exact .refl _

theorem State.fetchWord_dbg (va : Word) (s : State) : (s.fetchWord va).2.dbg = s.dbg := by
  unfold State.fetchWord
  split
  · rfl
  · simp only
    split <;> rfl

theorem State.sameButChain_fetch (va : Word) (s : State) : s.dbg.SameButChain (s.fetch va).2.dbg := by
  have word := s.fetchWord_dbg va
  unfold State.fetch
  generalize s.fetchWord va = x at word ⊢
  obtain ⟨got | i | r, u⟩ := x
  · exact word ▸ u.sameButChain_compare _
  · exact word ▸ u.sameButChain_compare _
  · exact word ▸ .refl _

theorem State.sameButChain_fillPipe (n : Nat) (s : State) : s.dbg.SameButChain (s.fillPipe n).dbg := by
  induction n generalizing s with
  | zero => exact .refl _
  | succ n ih =>
    have head := s.sameButChain_fetch (s.pc + s.len * BitVec.ofNat 32 s.pipe.length)
    exact head.trans (ih _)

theorem State.sameButChain_prefetch (s : State) : s.dbg.SameButChain s.prefetch.dbg := s.sameButChain_fillPipe _

/-! ## A breakpointed instruction (R546, R552) -/

/-- The boundary of a machine with a debugger at which neither debug entry nor an interrupt is pending runs the head
of the pipeline. -/
theorem State.coreStep_runNext {s : State} (stuck : s.stuck = none) (ack : s.dbg.ack = false)
    (pending : s.dbg.pending = false) (request : s.debugRequested = false) (top : s.offTop = false)
    (quiet : s.interrupt = none) : s.coreStep = s.runNext := by
  unfold State.coreStep
  simp [stuck, ack, pending, request, top, quiet]

theorem State.runNext_breakpointed {s : State} {w : Word} {rest : List Fetched}
    (pipe : s.prefetch.pipe = ⟨.ok w, true⟩ :: rest) : s.runNext = .next (s.prefetch.breakpointed w) := by
  unfold State.runNext
  simp only [pipe]
  rfl

theorem mul_three_eq (n : Word) : n * 3#32 = n + n + n := by bv_omega

/-- Debug entry moves the PC on by the slots that the first instruction executed there leaves (R549, R557). -/
theorem State.enterDebug_four_pc (cause : DebugCause) (s : State) :
    (s.enterDebug cause 4).pc = s.pc + s.len + s.len + s.len := by
  show s.pc + s.len * 3#32 = _
  rw [mul_three_eq]
  simp only [BitVec.add_assoc]

theorem State.enterDebug_three_pc (cause : DebugCause) (s : State) :
    (s.enterDebug cause 3).pc = s.pc + s.len + s.len := by
  show s.pc + s.len * 2#32 = _
  rw [BitVec.mul_two, BitVec.add_assoc]

theorem State.takePrefetchAbort_debug (s : State) : s.takePrefetchAbort debugAbort =
    State.enter .prefetchAbort (s.pc + 4) { s with cp14 := { s.cp14 with dbgAbt := true } } := rfl

theorem State.Fetches.pc {s t : State} (h : s.Fetches t) : t.pc = s.pc := by rw [h.same]

theorem State.Fetches.regs {s t : State} (h : s.Fetches t) : t.regs = s.regs := by rw [h.same]

theorem State.Fetches.len {s t : State} (h : s.Fetches t) : t.len = s.len := by
  rw [State.len, State.thumb, h.cpsr]
  rfl

theorem State.Fetches.spsrOf {s t : State} (h : s.Fetches t) (m : Mode) : t.spsrOf m = s.spsrOf m := by
  rw [h.same]
  exact State.spsrOf_congr rfl rfl rfl rfl rfl m

/-- A halt-mode breakpoint enters debug state three instruction lengths further (R546, R557). -/
theorem State.halts_at_breakpoint {s t : State} (f : s.Fetches t) (debug : s.dbg.SameButChain t.dbg) (w : Word)
    (halt : s.dbg.ctl.getLsbD 4 = false) :
    (t.breakpointed w).dbg.ack = true ∧ (t.breakpointed w).dbg.cause = some .breakpoint ∧
      (t.breakpointed w).pc = s.pc + s.len + s.len + s.len ∧ (t.breakpointed w).regs = s.regs ∧
      (t.breakpointed w).cpsr = s.cpsr ∧ (t.breakpointed w).cp15 = s.cp15 := by
  have mode : t.dbg.monitor = false := by rw [debug]; exact halt
  have enters : t.breakpointed w = t.enterDebug .breakpoint 4 := by rw [State.breakpointed, mode]; rfl
  rw [enters, State.enterDebug_four_pc, f.pc, f.len]
  exact ⟨rfl, rfl, rfl, f.regs, f.cpsr, f.cp15⟩

/-- A monitor-mode breakpoint whose condition passes takes a Prefetch Abort (R552). -/
theorem State.aborts_at_breakpoint {s t : State} (f : s.Fetches t) (debug : s.dbg.SameButChain t.dbg) {w : Word}
    (monitor : s.dbg.ctl.getLsbD 4 = true) (passes : s.wordPasses w = true) :
    (t.breakpointed w).cp14.dbgAbt = true ∧ Entered .prefetchAbort (s.pc + 4) s (t.breakpointed w) ∧
      (t.breakpointed w).cp15 = s.cp15 := by
  have mode : t.dbg.monitor = true := by rw [debug]; exact monitor
  have enters : t.breakpointed w = t.takePrefetchAbort debugAbort := by
    rw [State.breakpointed, mode, if_pos rfl, State.wordPasses_congr f.cpsr, if_pos passes]
  rw [enters, State.takePrefetchAbort_debug, State.enter_cp14, State.enter_cp15, f.pc]
  exact ⟨rfl, (State.entered ..).of_same f.cpsr (congrArg Cp15.control f.cp15) f.regs f.spsrOf, f.cp15⟩

/-! ## A data cycle with a debugger (R547, R552) -/

/-- What the units make of a cycle. -/
def State.compared (s : State) (y : BusCycle) : Debug :=
  (s.dbg.compare s.pins.dbgext (Config.unit1Inputs s.draws) y).2

theorem State.compare_debugged {s : State} (on : s.pins.dbgen = true) (ack : s.dbg.ack = false) (y : BusCycle) :
    s.compare y = (s.triggers y || (s.pins.dbgbreak && !s.dbg.monitor), { s with dbg := s.compared y }) := by
  unfold State.compare
  rw [if_pos on, ack]
  simp only [Bool.not_false, Bool.and_true]
  rfl

/-- In halt mode a data cycle goes through, and a match is remembered (R547). -/
theorem State.watch_halt {s : State} (on : s.pins.dbgen = true) (ack : s.dbg.ack = false)
    (halt : s.dbg.ctl.getLsbD 4 = false) (y : BusCycle) :
    s.watch y = (false, { s with dbg := { s.compared y with
      pending := s.dbg.pending || s.triggers y || s.pins.dbgbreak } }) := by
  have before : s.dbg.monitor = false := halt
  have after : (s.compared y).monitor = false := halt
  unfold State.watch
  rw [s.compare_debugged on ack, before]
  simp only [after, Bool.not_false, Bool.and_true, Bool.or_assoc]
  cases s.triggers y || s.pins.dbgbreak
  · rw [Bool.or_false]
    rfl
  · rw [Bool.or_true]
    rfl

/-- In monitor mode a match aborts the access (R552). -/
theorem State.watch_monitor {s : State} (on : s.pins.dbgen = true) (ack : s.dbg.ack = false)
    (monitor : s.dbg.ctl.getLsbD 4 = true) {y : BusCycle} (hit : s.triggers y = true) :
    s.watch y = (true, { s with dbg := s.compared y }) := by
  have after : (s.compared y).monitor = true := monitor
  unfold State.watch
  rw [s.compare_debugged on ack, hit]
  simp only [after, Bool.true_or, Bool.not_true, Bool.and_false, Bool.false_eq_true, if_false]

/-- A load whose read gets a word: the datum, unless the data cycle aborts it (R100, R552). -/
theorem State.load_of_read {s : State} (ack : s.dbg.ack = false) {k : Access} {n : Size} {priv : Bool} {va w : Word}
    {ms : MemSys} (reads : s.memsys.read s.platform.bigEndian s.cp15 k n priv va = (.ok w, ms)) {hit : Bool} {u : State}
    (watched : State.watch ⟨va, w, 0, false, n, true, priv⟩ { s with memsys := ms } = (hit, u)) :
    s.load k n priv va = if hit then (.abort debugAbort, u) else (.ok (lanes u.cp15.bigEndian n va w), u) := by
  unfold State.load
  rw [State.debugSpeed_quiet ack, reads]
  simp only [Bool.false_eq_true, if_false, watched]

/-- A store whose write is made, unless the data cycle aborts it (R100, R552). -/
theorem State.store_of_write {s : State} (ack : s.dbg.ack = false) {k : Access} {n : Size} {priv : Bool} {va v : Word}
    {ms : MemSys} (writes : s.memsys.write s.platform.bigEndian s.cp15 k n priv va v = (.ok (), ms)) {hit : Bool}
    {u : State} (watched : s.watch (writeCycle n priv va v) = (hit, u)) :
    s.store k n priv va v = if hit then (.abort debugAbort, u) else (.ok (), { u with memsys := ms }) := by
  have watched : s.watch ⟨va, replicated n v, 0, true, n, true, priv⟩ = (hit, u) := watched
  unfold State.store
  rw [State.debugSpeed_quiet ack, writes]
  simp only [Bool.false_eq_true, if_false, watched]

/-- A read that is let through gets its lane word (R100). -/
theorem State.reads_of_reaches {s : State} (q : s.undebugged.Quiet) {k : Access} {n : Size} {priv : Bool} {va : Word}
    {r : Route} (reaches : s.Reaches k n priv va r) :
    ∃ ms, s.memsys.read s.platform.bigEndian s.cp15 k n priv va =
        (.ok (s.wordRead k (accessMva s.cp15 n va) r), ms) ∧
      MemSys.Kept s.platform.bigEndian s.memsys ms :=
  ⟨_, Prod.ext (q.read (s := s.undebugged) reaches) rfl, q.calm.kept_read ..⟩

/-- A write that is let through is made (R100). -/
theorem State.writes_of_reaches {s : State} (q : s.undebugged.Quiet) {k : Access} {n : Size} {priv : Bool} {va : Word}
    {r : Route} (reaches : s.Reaches k n priv va r) (v : Word) :
    ∃ ms, s.memsys.write s.platform.bigEndian s.cp15 k n priv va v = (.ok (), ms) := by
  obtain ⟨ms, stores, -⟩ := State.store_quiet (v := v) q (r := r) reaches
  rw [State.store_undebugged q.dbgen q.ack] at stores
  have made : (s.memsys.write s.platform.bigEndian s.cp15 k n priv va v).1 = .ok () := congrArg Prod.fst stores
  exact ⟨_, Prod.ext made rfl⟩

/-! ## The debug logic and the registers -/

/-- The state with other debug logic and pins. -/
def State.withDebug (d : Debug) (p : Pins) (s : State) : State := { s with dbg := d, pins := p }

theorem State.setReg_withDebug (d : Debug) (q : Pins) (i : Reg) (v : Word) (s : State) :
    (s.withDebug d q).setReg i v = (s.setReg i v).withDebug d q := by
  show State.setBankReg s.mode i v _ = State.withDebug d q (State.setBankReg s.mode i v s)
  unfold State.setBankReg
  split <;> rfl

theorem Transfer.writeBase_withDebug (p : Transfer) (d : Debug) (q : Pins) (s : State) :
    p.writeBase (s.withDebug d q) = (p.writeBase s).withDebug d q := by
  unfold Transfer.writeBase
  split
  · rfl
  · exact State.setReg_withDebug ..

theorem State.finish_withDebug (d : Debug) (q : Pins) (rd : Reg) (v : Word) (s : State) :
    (s.withDebug d q).finish rd v = (s.finish rd v).withDebug d q := by
  unfold State.finish
  split
  · rfl
  · rw [State.setReg_withDebug]
    rfl

theorem State.advance_withDebug (d : Debug) (q : Pins) (s : State) :
    (s.withDebug d q).advance = s.advance.withDebug d q := rfl

theorem State.finish_dbg (rd : Reg) (v : Word) (s : State) : (s.finish rd v).dbg = s.dbg := by
  unfold State.finish
  split
  · rfl
  · simp

/-- A load that completes: the base written back, then Rd. -/
theorem State.loadTo_of_ok {s u : State} {p : Transfer} {w : Word}
    (loads : s.load .read p.size p.priv p.addr = (.ok w, u)) :
    s.loadTo p.size p.place p.value p.rd = .next ((p.writeBase u).finish p.rd (p.value w)) := by
  unfold State.loadTo
  rw [show State.load .read p.size p.place.priv p.place.addr s = _ from loads]
  simp only [State.writeBack_place]

/-- A load that aborts: the base written back, then the Data Abort (R317). -/
theorem State.loadTo_of_abort {s u : State} {p : Transfer} {i : AbortInfo}
    (loads : s.load .read p.size p.priv p.addr = (.abort i, u)) :
    s.loadTo p.size p.place p.value p.rd = .next ((p.writeBase u).takeDataAbort i) := by
  unfold State.loadTo
  rw [show State.load .read p.size p.place.priv p.place.addr s = _ from loads]
  simp only [State.writeBack_place]

theorem State.storeRegTo_of_abort {s u : State} {p : Transfer} {i : AbortInfo}
    (stores : s.store .write p.size p.priv p.addr (s.storeReg p.rd) = (.abort i, u)) :
    s.storeRegTo p.size p.place p.rd = .next ((p.writeBase u).takeDataAbort i) := by
  unfold State.storeRegTo State.storeFrom
  rw [show s.store .write p.size p.place.priv p.place.addr (s.storeReg p.rd) = _ from stores]
  simp only [State.writeBack_place]

theorem State.IsLoad.exec_even {s : State} {p : Transfer} (load : s.IsLoad p) (even : p.oddHalf = false) :
    exec p.instr s = s.loadTo p.size p.place p.value p.rd := by
  rw [load.exec_eq, State.loadsTo, even, if_neg Bool.false_ne_true]

theorem State.IsStore.exec_even {s : State} {p : Transfer} (store : s.IsStore p) (even : p.oddHalf = false) :
    exec p.instr s = s.storeRegTo p.size p.place p.rd := by
  rw [store.exec_eq, State.storesFrom, even, Bool.false_and, Bool.false_and, if_neg Bool.false_ne_true]

/-! ## A watchpoint in halt mode (R547) -/

/-- A transfer that completes the same way with a debugger and without one. -/
structure State.CompletesWatched (s : State) (p : Transfer) (y : BusCycle) (t : State) : Prop where
  debugged : exec p.instr s = .next t
  undebugged : exec p.instr s.undebugged = .next (t.withDebug s.dbg s.undebugged.pins)
  pending : t.dbg.pending = (s.dbg.pending || s.triggers y || s.pins.dbgbreak)

theorem State.IsLoad.halt {s : State} {p : Transfer} {r : Route} (load : s.IsLoad p) (even : p.oddHalf = false)
    (on : s.pins.dbgen = true) (q : s.undebugged.Quiet) (halt : s.dbg.ctl.getLsbD 4 = false)
    (reaches : s.Reaches .read p.size p.priv p.addr r) :
    ∃ t, s.CompletesWatched p (s.readCycle p.size p.priv p.addr r) t := by
  obtain ⟨ms, reads, -⟩ := State.reads_of_reaches q reaches
  have loads := State.load_of_read (s := s) q.ack reads (State.watch_halt (s := { s with memsys := ms }) on q.ack halt _)
  have alone := State.load_of_read (s := s.undebugged) q.ack reads
    (State.watch_quiet (s := { s.undebugged with memsys := ms }) q.dbgen _)
  rw [if_neg Bool.false_ne_true] at loads alone
  refine ⟨_, (load.exec_even even).trans (State.loadTo_of_ok loads), ?_, ?_⟩
  · have same : exec p.instr s.undebugged = _ :=
      (State.IsLoad.exec_even (s := s.undebugged) load even).trans (State.loadTo_of_ok alone)
    rw [same]
    congr 1
    refine Eq.trans ?_ (State.finish_withDebug ..)
    rw [← p.writeBase_withDebug]
    rfl
  · rw [State.finish_dbg, p.writeBase_dbg]
    rfl

theorem State.IsStore.halt {s : State} {p : Transfer} {r : Route} (store : s.IsStore p) (even : p.oddHalf = false)
    (on : s.pins.dbgen = true) (q : s.undebugged.Quiet) (halt : s.dbg.ctl.getLsbD 4 = false)
    (reaches : s.Reaches .write p.size p.priv p.addr r) :
    ∃ t, s.CompletesWatched p (writeCycle p.size p.priv p.addr (s.stored p.rd)) t := by
  obtain ⟨ms, writes⟩ := State.writes_of_reaches q reaches (s.storeReg p.rd)
  have stores := State.store_of_write (s := s) q.ack writes (State.watch_halt on q.ack halt _)
  have alone := State.store_of_write (s := s.undebugged) q.ack writes (State.watch_quiet q.dbgen _)
  rw [if_neg Bool.false_ne_true] at stores alone
  refine ⟨_, (store.exec_even even).trans (State.storeRegTo_of_ok stores), ?_, ?_⟩
  · have same : exec p.instr s.undebugged = _ :=
      (State.IsStore.exec_even (s := s.undebugged) store even).trans (State.storeRegTo_of_ok alone)
    rw [same]
    congr 1
    refine Eq.trans ?_ (State.advance_withDebug ..)
    rw [← p.writeBase_withDebug]
    rfl
  · rw [State.advance_debug, p.writeBase_dbg]
    rfl

/-! ## A watchpoint in monitor mode (R552) -/

theorem State.rememberAbort_eq (s : State) : ∃ d, s.rememberAbort = { s with dbg := d } := by
  unfold State.rememberAbort
  split
  · exact ⟨_, rfl⟩
  · exact ⟨s.dbg, rfl⟩

theorem State.takeDataAbort_debug (s : State) : ∃ d fsr far, s.takeDataAbort debugAbort =
    State.enter .dataAbort (s.pc + 8) { s with
      cp15 := { s.cp15 with fsr := fsr, far := far }
      cp14 := { s.cp14 with dbgAbt := true }
      dbg := d
      draws := s.draws + 2 } := by
  obtain ⟨d, remembers⟩ := s.recordDebugAbort.rememberAbort_eq
  refine ⟨d, s.recordDebugAbort.cp15.fsr, s.recordDebugAbort.cp15.far, ?_⟩
  rw [State.takeDataAbort, debugAbort, if_pos rfl, remembers]
  rfl

/-- What a watchpoint's Data Abort leaves, when the instruction at `s` has made `x` of the registers. -/
structure State.DebugAborted (s x : State) (ms : MemSys) (t : State) : Prop where
  entered : Entered .dataAbort (s.pc + 8) x t
  cp14 : t.cp14 = { s.cp14 with dbgAbt := true }
  platform : t.platform = s.platform
  memsys : t.memsys = ms

theorem State.SameRegisters.debugAborted {s u : State} (h : s.SameRegisters u) :
    s.DebugAborted s u.memsys (u.takeDataAbort debugAbort) := by
  obtain ⟨ms, d, n, calls, rfl⟩ := h
  obtain ⟨d', fsr, far, e⟩ :=
    State.takeDataAbort_debug { s with memsys := ms, dbg := d, draws := n, calls := calls }
  refine ⟨?_, ?_, ?_, State.takeDataAbort_memsys ..⟩
  · rw [e]
    exact (State.entered ..).of_same rfl rfl rfl (State.spsrOf_congr rfl rfl rfl rfl rfl)
  · rw [e, State.enter_cp14]
  · rw [e, State.enter_platform]

/-- A transfer the units abort: the base is written back, and the Data Abort is taken (R317, R552). -/
theorem State.SameRegisters.aborts_transfer {s u : State} (h : s.SameRegisters u) (p : Transfer) :
    s.DebugAborted (p.writeBase s) u.memsys ((p.writeBase u).takeDataAbort debugAbort) := by
  have base := h.writeBack p
  rw [State.writeBack_place] at base
  obtain ⟨entered, cp14, platform, memsys⟩ := base.debugAborted
  rw [p.writeBase_memsys] at memsys
  obtain ⟨r, written⟩ := p.writeBase_regs s
  refine ⟨?_, cp14.trans ?_, platform.trans ?_, memsys⟩
  · rwa [p.writeBase_pc] at entered
  · rw [written]
  · rw [written]

theorem State.DebugAborted.byteAt {s x t : State} {ms : MemSys} (h : s.DebugAborted x ms t)
    (kept : MemSys.Kept s.platform.bigEndian s.memsys ms) (a : Nat) : t.byteAt a = s.byteAt a := by
  rw [← kept.byteAt a]
  unfold State.byteAt State.settled
  rw [h.platform, h.memsys]

theorem State.IsLoad.monitor {s : State} {p : Transfer} {r : Route} (load : s.IsLoad p) (even : p.oddHalf = false)
    (on : s.pins.dbgen = true) (q : s.undebugged.Quiet) (monitor : s.dbg.ctl.getLsbD 4 = true)
    (reaches : s.Reaches .read p.size p.priv p.addr r)
    (hit : s.triggers (s.readCycle p.size p.priv p.addr r) = true) :
    ∃ t ms, exec p.instr s = .next t ∧ s.DebugAborted (p.writeBase s) ms t ∧
      MemSys.Kept s.platform.bigEndian s.memsys ms := by
  obtain ⟨ms, reads, kept⟩ := State.reads_of_reaches q reaches
  have loads := State.load_of_read (s := s) q.ack reads
    (State.watch_monitor (s := { s with memsys := ms }) on q.ack monitor hit)
  rw [if_pos rfl] at loads
  have same : s.SameRegisters { s with memsys := ms, dbg := s.compared (s.readCycle p.size p.priv p.addr r) } :=
    ⟨ms, _, s.draws, s.calls, rfl⟩
  exact ⟨_, ms, (load.exec_even even).trans (State.loadTo_of_abort loads), same.aborts_transfer p, kept⟩

theorem State.IsStore.monitor {s : State} {p : Transfer} {r : Route} (store : s.IsStore p) (even : p.oddHalf = false)
    (on : s.pins.dbgen = true) (q : s.undebugged.Quiet) (monitor : s.dbg.ctl.getLsbD 4 = true)
    (reaches : s.Reaches .write p.size p.priv p.addr r)
    (hit : s.triggers (writeCycle p.size p.priv p.addr (s.stored p.rd)) = true) :
    ∃ t ms, exec p.instr s = .next t ∧ s.DebugAborted (p.writeBase s) ms t ∧
      MemSys.Kept s.platform.bigEndian s.memsys ms := by
  obtain ⟨ms, writes⟩ := State.writes_of_reaches q reaches (s.storeReg p.rd)
  have stores := State.store_of_write (s := s) q.ack writes (State.watch_monitor on q.ack monitor hit)
  rw [if_pos rfl] at stores
  have same : s.SameRegisters { s with dbg := s.compared (writeCycle p.size p.priv p.addr (s.stored p.rd)) } :=
    ⟨s.memsys, _, s.draws, s.calls, rfl⟩
  exact ⟨_, s.memsys, (store.exec_even even).trans (State.storeRegTo_of_abort stores), same.aborts_transfer p,
    .refl q.calm⟩

/-! ## A remembered watchpoint (R547, R557) -/

theorem State.coreStep_pending {s : State} (on : s.pins.dbgen = true) (stuck : s.stuck = none)
    (ack : s.dbg.ack = false) (pending : s.dbg.pending = true) : s.coreStep = .next s.enterDebugPending := by
  unfold State.coreStep
  simp [stuck, ack, on, pending]

theorem State.interrupt_none_iff (s : State) :
    s.interrupt = none ↔ s.fiqPending = false ∧ s.irqPending = false := by
  unfold State.interrupt
  cases s.fiqPending <;> cases s.irqPending <;> simp

/-- A fetch raises no interrupt (R506). -/
theorem State.Fetches.interrupt_none {s t : State} (f : s.Fetches t) (debug : s.dbg.SameButChain t.dbg)
    (quiet : s.interrupt = none) : t.interrupt = none := by
  have ifen : t.ifen = s.ifen := by
    unfold State.ifen State.dbgack
    rw [f.pins, debug]
  have fiq : t.fiqPending = s.fiqPending := by
    unfold State.fiqPending
    rw [f.pins, f.cpsr, ifen]
  have irq : t.irqPending = s.irqPending := by
    unfold State.irqPending
    rw [f.pins, f.cpsr, ifen]
  rw [State.interrupt_none_iff] at quiet ⊢
  rwa [fiq, irq]

theorem State.fetchAbortVector_eq {s : State} (pending : s.dbg.pending = true) :
    s.fetchAbortVector = if s.dbg.pendingAbort then (s.fetch s.pc).2 else s := by
  rw [State.fetchAbortVector, pending, Bool.true_and]

theorem State.fetches_fetchAbortVector (s : State) : s.Fetches s.fetchAbortVector := by
  unfold State.fetchAbortVector
  split
  · exact s.fetches_fetch s.pc
  · exact .refl s

theorem State.sameButChain_fetchAbortVector (s : State) : s.dbg.SameButChain s.fetchAbortVector.dbg := by
  unfold State.fetchAbortVector
  split
  · exact s.sameButChain_fetch s.pc
  · exact .refl _

theorem State.enterDebugPending_eq {s : State} (pending : s.dbg.pending = true) (quiet : s.interrupt = none) :
    s.enterDebugPending =
      s.fetchAbortVector.enterDebug .watchpoint (if s.dbg.pendingAbort then 3 else 4) := by
  have debug := s.sameButChain_fetchAbortVector
  have after : s.fetchAbortVector.dbg.pending = true := by rw [debug]; exact pending
  have abort : s.fetchAbortVector.dbg.pendingAbort = s.dbg.pendingAbort := by rw [debug]
  unfold State.enterDebugPending
  simp only [s.fetches_fetchAbortVector.interrupt_none debug quiet, pending, after, abort, if_true, Bool.true_and]
  cases s.dbg.pendingAbort <;> rfl

/-- "With exception" the PC moves on by one slot less (R557). -/
theorem State.enterDebug_watchpoint_pc (exception : Bool) (s : State) :
    (s.enterDebug .watchpoint (if exception then 3 else 4)).pc =
      s.pc + s.len + s.len + if exception then 0 else s.len := by
  cases exception
  · exact State.enterDebug_four_pc ..
  · exact (State.enterDebug_three_pc ..).trans (BitVec.add_zero _).symm

/-! ## The obligation -/

/-- Settles O60: a breakpointed instruction at the boundary, the units, a watchpointed load or store in each mode,
and the debug entry for a remembered watchpoint. -/
theorem breakpointTaken : Obligations.BreakpointTaken := by
  refine ⟨?breakpoint, fun d ext range1 chain1 y => d.units ext range1 chain1 y, ?watchpoint, ?remembered⟩
  case breakpoint =>
    intro s w rest on schedule stuck ack pending request top quiet pipe
    have runs : step s = .next (s.prefetch.breakpointed w) := by
      rw [step_of_no_event schedule, State.coreStep_runNext stuck ack pending request top quiet,
        State.runNext_breakpointed pipe]
    have debug := s.sameButChain_prefetch
    refine ⟨fun halt => ⟨_, runs, State.halts_at_breakpoint s.fetches_prefetch debug w halt⟩,
      fun monitor passes => ?_⟩
    obtain ⟨dbgAbt, entered, cp15⟩ := State.aborts_at_breakpoint s.fetches_prefetch debug monitor passes
    exact ⟨_, runs, dbgAbt, entered, by rw [cp15]⟩
  case watchpoint =>
    intro s p r on q even y access
    refine ⟨fun halt => ?_, fun monitor hit => ?_⟩
    · obtain ⟨t, debugged, undebugged, pending⟩ : ∃ t, s.CompletesWatched p y t := by
        rcases access with ⟨load, reaches, rfl⟩ | ⟨store, reaches, rfl⟩
        · exact load.halt even on q halt reaches
        · exact store.halt even on q halt reaches
      exact ⟨t, debugged, undebugged, pending⟩
    · obtain ⟨t, ms, run, aborted, kept⟩ : ∃ t ms, exec p.instr s = .next t ∧
          s.DebugAborted (p.writeBase s) ms t ∧ MemSys.Kept s.platform.bigEndian s.memsys ms := by
        rcases access with ⟨load, reaches, rfl⟩ | ⟨store, reaches, rfl⟩
        · exact load.monitor even on q monitor reaches hit
        · exact store.monitor even on q monitor reaches hit
      exact ⟨t, run, aborted.entered, aborted.cp14, aborted.byteAt kept⟩
  case remembered =>
    intro s on schedule stuck ack pending quiet
    have f := s.fetches_fetchAbortVector
    refine ⟨_, (step_of_no_event schedule).trans (State.coreStep_pending on stuck ack pending), ?_⟩
    rw [State.enterDebugPending_eq pending quiet, State.enterDebug_watchpoint_pc, f.pc, f.len]
    refine ⟨rfl, rfl, rfl, f.regs, f.cpsr, f.cp15, ?_⟩
    exact (congrArg State.memsys (State.fetchAbortVector_eq pending)).trans (apply_ite ..)

end Sys2Proof.Machine
end
